-- ==== Sys2Proof/Word.lean ====
section
/-! DEFINITION. The two word types of the engine: an 8-bit sample or payload byte, and a 32-bit
register, coefficient or command word (00_scope.md R11, 30_encoding.md R100). -/

namespace Sys2Proof

/-- An 8-bit unsigned frame sample or payload byte (R11, R59). -/
abbrev Byte := BitVec 8

/-- A 32-bit word: a command (R100), a result register (R40), a coefficient (R43). -/
abbrev Word := BitVec 32

end Sys2Proof
end

