-- ==== Sys2Proof/Config.lean ====
section
/-! DEFINITION. The construction-time parameters of 00_scope.md R9 that are OPEN, the check of R10,
and the free values of the model. An OPEN parameter has no value in any source: an engine is built
with some instance of them, every state holds the instance it was built with, and the instance of the
engine after reset is the opaque constant `Config.params`. -/

namespace Sys2Proof

/-- A symbol of an AC table: a `(run, level, last)` triple or the sentinel `ESC` (R150). -/
inductive AcSym where
  | rle (run level : Nat) (last : Bool)
  | esc
deriving DecidableEq, Repr

/-- One `(code_bits, code_len, symbol)` entry of a VLC table (R150). -/
structure VlcEntry (σ : Type) where
  code : Nat
  len : Nat
  sym : σ
deriving DecidableEq, Repr

/-- A VLC table of kind AC or SCALAR (R150). -/
inductive VlcTable where
  | ac (entries : List (VlcEntry AcSym))
  | scalar (entries : List (VlcEntry Nat))
deriving DecidableEq, Repr

/-- The three shapes of the WMV2 transform (R12, R228). -/
inductive WmvShape where
  | s8x8
  | s8x4
  | s4x8
deriving DecidableEq, Repr

/-- The OPEN parameters of R9 that are data. `vlc` is `P_VLC` (its length is `NT`), `scan` is
`P_SCAN` with `none` at an undefined scan id. The quantizer-indexed tables have 32 entries; entry 0 is
any integer (93_implementation_defined.md I20). -/
structure ParamData where
  vlc : List VlcTable
  maxVlcBits : Nat
  scan : List (Option (List Nat))
  nuStep : List Int
  vc1DcStep : List Int
  wmv2DcScaleY : List Int
  wmv2DcScaleC : List Int
  dcSentinelVc1 : Word
  dcSentinelWmv2 : Word
  putBiasVc1 : Int
  putBiasWmv2 : Int
  payloadMax : Nat
deriving DecidableEq, Repr

namespace Config

/-- An entry's code has a legal length and fits in it (R10). -/
def entryOk {σ : Type} (maxBits : Nat) (e : VlcEntry σ) : Bool :=
  decide (1 ≤ e.len) && decide (e.len ≤ maxBits) && decide (e.code < 2 ^ e.len)

/-- Neither of two entries' codes begins with the other's (R10: the codes are prefix-free). -/
def prefixFree {σ : Type} (a b : VlcEntry σ) : Bool :=
  decide (a.code >>> (a.len - min a.len b.len) ≠ b.code >>> (b.len - min a.len b.len))

/-- The codes of a table are legal and prefix-free (R10). -/
def codesOk {σ : Type} (maxBits : Nat) (es : List (VlcEntry σ)) : Bool :=
  es.all (entryOk maxBits) && decide (es.Pairwise fun a b => prefixFree a b = true)

/-- An AC symbol has `run` in 0..63 and `level` in 1..255 (R10, R150). -/
def acSymOk : AcSym → Bool
  | .rle run level _ => decide (run ≤ 63) && decide (1 ≤ level) && decide (level ≤ 255)
  | .esc => true

/-- One table of `P_VLC` keeps the ranges of R10. -/
def tableOk (maxBits : Nat) : VlcTable → Bool
  | .ac es => codesOk maxBits es && es.all fun e => acSymOk e.sym
  | .scalar es => codesOk maxBits es && es.all fun e => decide (e.sym < 2 ^ 31)

/-- A scan table is undefined, or has length 16, 32 or 64 and distinct positions 0..63 (R9, R10, R170). -/
def scanOk : Option (List Nat) → Bool
  | none => true
  | some l => (l.length == 16 || l.length == 32 || l.length == 64) && l.all (fun p => decide (p < 64))
      && decide l.Nodup

/-- A quantizer-indexed table has 32 entries, each of index 1..31 at least `lo` (R9, R10). -/
def stepsOk (lo : Int) (l : List Int) : Bool :=
  l.length == 32 && (l.drop 1).all fun v => decide (lo ≤ v)

end Config

/-- The check of R10: a parameter instance that breaks its stated range is refused. -/
def ParamData.wf (d : ParamData) : Bool :=
  decide (1 ≤ d.vlc.length) && decide (d.vlc.length ≤ 256)
    && decide (1 ≤ d.maxVlcBits) && decide (d.maxVlcBits ≤ 32)
    && d.vlc.all (Config.tableOk d.maxVlcBits)
    && decide (d.scan.length ≤ 16) && d.scan.all Config.scanOk
    && Config.stepsOk 0 d.nuStep && Config.stepsOk 1 d.vc1DcStep
    && Config.stepsOk 1 d.wmv2DcScaleY && Config.stepsOk 1 d.wmv2DcScaleC
    && decide (1 ≤ d.payloadMax)

/-- A small instance that passes R10. It only shows that legal instances exist (the type `Params` has
an element); no meaning and no reset value rests on it. -/
def ParamData.smallest : ParamData where
  vlc := [.scalar []]
  maxVlcBits := 1
  scan := []
  nuStep := List.replicate 32 0
  vc1DcStep := List.replicate 32 1
  wmv2DcScaleY := List.replicate 32 1
  wmv2DcScaleC := List.replicate 32 1
  dcSentinelVc1 := 0
  dcSentinelWmv2 := 0
  putBiasVc1 := 0
  putBiasWmv2 := 0
  payloadMax := 1

/-- A parameter instance that keeps the ranges of R10. An instance that breaks one is refused here:
no `Params` holds it, so no engine is built with it. -/
structure Params where
  raw : ParamData := ParamData.smallest
  ok : raw.wf = true := by decide
deriving DecidableEq, Repr, Inhabited

/-- Builds an engine's parameters, refusing an instance that breaks R10. -/
def Params.make? (d : ParamData) : Option Params :=
  if h : d.wf = true then some ⟨d, h⟩ else none

namespace Config

/-- FREE VALUE (DESIGN CHOICE, log entry 2): the parameter instance the engine was built with (R9, OPEN). Nothing in Lean can say
which legal instance it is. -/
opaque params : Params

/-- FREE VALUE (log entry 6): `P_WMV2_IDCT`, the three opaque WMV2 transforms (R8, R12, R228). -/
opaque wmv2Idct : WmvShape → Vector Int 64 → Vector Int 64

/-- FREE VALUE (log entry 3): the content of payload byte `a` before the host writes it (R59, I8: any value). -/
opaque payloadReset : Nat → Byte

/-- FREE VALUE (log entry 4): `rdiv(p, s)` for `s < 1`, which R14 leaves without a value; it is met only when entry
0 of a quantizer-indexed table is read and is not positive (I14, I20). -/
opaque rdivUnstated : Int → Int → Int

/-- FREE VALUE (log entry 13): what the host reads at offset `n` of plane number `p` of `OUT` while no `OUT` is
present (R86: an unspecified value). -/
opaque outAbsent : Nat → Nat → Byte

/-- FREE VALUE (log entry 13): what the host reads on `OUT_MBW` (number 0) and `OUT_MBH` (number 1) while no `OUT` is
present, which R86 leaves without a value. -/
opaque outSizeAbsent : Nat → BitVec 12

end Config

end Sys2Proof
end

