-- ==== Sys2Proof/Machine/Arith.lean ====
section
/-! DEFINITION. The arithmetic primitives of 00_scope.md R14, on mathematical integers, and the
narrowing of a value to the width of its destination (R11, R15). -/

namespace Sys2Proof.Machine

/-- A value stored in a 32-bit two's-complement destination (R11, R15). -/
def i32 (v : Int) : Word := BitVec.ofInt 32 v

/-- A natural number stored in a 32-bit destination (R15). -/
def n32 (n : Nat) : Word := BitVec.ofNat 32 n

/-- A sample stored in 8 bits (R15, R51). -/
def u8 (v : Int) : Byte := BitVec.ofInt 8 v

/-- A flag as the number 0 or 1. -/
def bit01 (b : Bool) : Nat := if b then 1 else 0

/-- The arithmetic right shift `a >> n`, equal to `floor(a / 2^n)` (R14). -/
def asr (a : Int) (n : Nat) : Int := a / 2 ^ n

/-- The low bit `a & 1` of a two's-complement value (R293). -/
def lowBit (a : Int) : Int := a % 2

/-- `clamp(v, lo, hi)` (R14). -/
def clamp (v lo hi : Int) : Int := min (max v lo) hi

/-- `median3(a, b, c)` (R14). -/
def median3 (a b c : Int) : Int := a + b + c - min a (min b c) - max a (max b c)

/-- `rdiv(p, s)`: rounded division, truncating, for `s >= 1` (R14); a free value otherwise. -/
def rdiv (p s : Int) : Int :=
  if 1 ≤ s then Int.tdiv (p + asr s 1) s else Config.rdivUnstated p s

/-- `sext_n(u)` of an `n`-bit value, and 0 for `n = 0` (R13, R136). -/
def sextN (n u : Nat) : Int :=
  if n = 0 then 0 else if u < 2 ^ (n - 1) then (u : Int) else (u : Int) - 2 ^ n

/-- A magnitude with its sign bit, 1 meaning negative (R176, R179). -/
def signed (neg : Bool) (mag : Nat) : Int := if neg then -(mag : Int) else (mag : Int)

/-- The sum of `f k` over `k` in `0..n-1`. -/
def sumTo : Nat → (Nat → Int) → Int
  | 0, _ => 0
  | n + 1, f => sumTo n f + f n

/-- The largest of `f x` over a list, 0 for the empty list (R151, R152). -/
def maxOver {α : Type} (l : List α) (f : α → Nat) : Nat := l.foldr (fun x m => max (f x) m) 0

end Sys2Proof.Machine
end

