-- ==== Sys2Proof/Machine/Frame.lean ====
section
/-! DEFINITION. Frames (10_state.md R51, 20_memory.md R85) and motion-compensation buffers (R53):
planes of 8-bit samples in row-major order. -/

namespace Sys2Proof.Machine

/-- The planes of a frame (R51). -/
inductive PlaneId where
  | y
  | cb
  | cr
deriving DecidableEq, Repr

/-- The side of one macroblock in a plane: 16 luma samples, 8 chroma samples (R17, R320). -/
def PlaneId.unit : PlaneId → Nat
  | .y => 16
  | .cb => 8
  | .cr => 8

/-- The samples of a `w`-wide, `h`-tall plane in row-major order: sample `(x, y)` at offset
`y * w + x` (R85). -/
def raster (w h : Nat) (g : Nat → Nat → Byte) : List Byte :=
  (List.range (w * h)).map fun k => g (k % w) (k / w)

/-- A frame: the size in macroblocks it was made at and its three planes, row-major (R51, R85). -/
structure Frame where
  mbw : BitVec 12
  mbh : BitVec 12
  y : List Byte
  cb : List Byte
  cr : List Byte
deriving DecidableEq, Repr

/-- The samples of a plane. -/
def Frame.plane (f : Frame) : PlaneId → List Byte
  | .y => f.y
  | .cb => f.cb
  | .cr => f.cr

/-- `Wp` (R36, R85). -/
def Frame.width (f : Frame) (p : PlaneId) : Nat := p.unit * f.mbw.toNat

/-- `Hp` (R36, R85). -/
def Frame.height (f : Frame) (p : PlaneId) : Nat := p.unit * f.mbh.toNat

/-- `Pix(F, p, x, y)` for a sample that exists (R15, R85). -/
def Frame.pix (f : Frame) (p : PlaneId) (x y : Nat) : Byte :=
  (f.plane p).getD (y * f.width p + x) 0

/-- The frame of a given size whose samples are `g p x y`. -/
def Frame.build (mbw mbh : BitVec 12) (g : PlaneId → Nat → Nat → Byte) : Frame where
  mbw := mbw
  mbh := mbh
  y := raster (PlaneId.y.unit * mbw.toNat) (PlaneId.y.unit * mbh.toNat) (g .y)
  cb := raster (PlaneId.cb.unit * mbw.toNat) (PlaneId.cb.unit * mbh.toNat) (g .cb)
  cr := raster (PlaneId.cr.unit * mbw.toNat) (PlaneId.cr.unit * mbh.toNat) (g .cr)

/-- The frame with every sample replaced by `g` of its plane, place and value. -/
def Frame.mapPix (f : Frame) (g : PlaneId → Nat → Nat → Byte → Byte) : Frame :=
  Frame.build f.mbw f.mbh fun p x y => g p x y (f.pix p x y)

/-- The default fill of a plane: Y = 16, Cb = Cr = 128 (R51). -/
def fillOf : PlaneId → Byte
  | .y => 16
  | .cb => 128
  | .cr => 128

/-- A default frame (R51). -/
def Frame.fresh (mbw mbh : BitVec 12) : Frame := Frame.build mbw mbh fun p _ _ => fillOf p

/-- Each plane holds as many samples as the size says (R51). -/
abbrev Frame.wf (f : Frame) : Prop :=
  f.y.length = f.width .y * f.height .y ∧ f.cb.length = f.width .cb * f.height .cb
    ∧ f.cr.length = f.width .cr * f.height .cr

/-- A motion-compensation prediction buffer `MCBUF[k]`: 16×16 luma and 8×8 chroma samples (R53). -/
structure McBuf where
  y : Vector Byte 256
  cb : Vector Byte 64
  cr : Vector Byte 64
deriving DecidableEq, Repr

/-- The buffer whose sample at row `r`, column `c` of plane `p` is `g p r c`. -/
def McBuf.build (g : PlaneId → Nat → Nat → Byte) : McBuf where
  y := Vector.ofFn fun i : Fin 256 => g .y (i.val / 16) (i.val % 16)
  cb := Vector.ofFn fun i : Fin 64 => g .cb (i.val / 8) (i.val % 8)
  cr := Vector.ofFn fun i : Fin 64 => g .cr (i.val / 8) (i.val % 8)

/-- `MCBUF[k].p[r][c]` (R53). -/
def McBuf.sample (t : McBuf) : PlaneId → Nat → Nat → Byte
  | .y, r, c => t.y[16 * r + c]?.getD 0
  | .cb, r, c => t.cb[8 * r + c]?.getD 0
  | .cr, r, c => t.cr[8 * r + c]?.getD 0

/-- Every sample 0 (R53: the reset value). -/
def McBuf.zero : McBuf := McBuf.build fun _ _ _ => 0

end Sys2Proof.Machine
end

