-- ==== Sys2Proof/Machine/Sparse.lean ====
section
/-! DEFINITION. Sparse data by key: a list of (key, value) pairs with strictly rising keys, and the
grids (10_state.md R47 to R50, R54) built on it: one default value that a reset writes in every entry,
and the entries that differ from it (DESIGN CHOICE, log entry 25). -/

namespace Sys2Proof.Machine

/-- The value listed at a key. -/
def sparseLookup {α : Type} : List (Nat × α) → Nat → Option α
  | [], _ => none
  | (k, v) :: rest, a => if a = k then some v else sparseLookup rest a

/-- The list with `v` at key `a`, in its place. -/
def sparseInsert {α : Type} : List (Nat × α) → Nat → α → List (Nat × α)
  | [], a, v => [(a, v)]
  | (k, w) :: rest, a, v =>
    if a < k then (a, v) :: (k, w) :: rest
    else if a = k then (a, v) :: rest
    else (k, w) :: sparseInsert rest a v

/-- The list with nothing at key `a`. -/
def sparseErase {α : Type} (l : List (Nat × α)) (a : Nat) : List (Nat × α) :=
  l.filter fun c => decide (c.1 ≠ a)

/-- The keys rise strictly. -/
abbrev sparseSorted {α : Type} (l : List (Nat × α)) : Prop := (l.map Prod.fst).Pairwise (· < ·)

/-- A buffer with one element per key: `dflt` where nothing is listed. -/
structure Grid (α : Type) where
  dflt : α
  cells : List (Nat × α)
deriving DecidableEq, Repr

/-- Every element at `d`: what a reset of the buffer leaves. -/
def Grid.fresh {α : Type} (d : α) : Grid α := ⟨d, []⟩

/-- The element at a key. -/
def Grid.read {α : Type} (g : Grid α) (k : Nat) : α := (sparseLookup g.cells k).getD g.dflt

/-- Writes one element and keeps the canonical form: the default value is not listed. -/
def Grid.write {α : Type} [DecidableEq α] (g : Grid α) (k : Nat) (v : α) : Grid α :=
  if v = g.dflt then { g with cells := sparseErase g.cells k }
  else { g with cells := sparseInsert g.cells k v }

/-- The canonical form: keys rise strictly and no entry equals the default. -/
abbrev Grid.wf {α : Type} [DecidableEq α] (g : Grid α) : Prop :=
  sparseSorted g.cells ∧ ∀ c ∈ g.cells, c.2 ≠ g.dflt

/-- The key of macroblock `(mbx, mby)` (each coordinate has 12 bits, R37). -/
def mbKey (mbx mby : Nat) : Nat := mbx * 4096 + mby

/-- The key of block `b` of macroblock `(mbx, mby)` (R47). -/
def blockKey (mbx mby b : Nat) : Nat := mbKey mbx mby * 8 + b

/-- The key of element `i` of an AC cache of block `b` of macroblock `(mbx, mby)` (R48). -/
def cacheKey (mbx mby b i : Nat) : Nat := blockKey mbx mby b * 8 + i

/-- The key of the 8×8 luma block at block-grid coordinate `(bx, by)` (R50: below 2·4095 per axis). -/
def gridKey (bx yb : Nat) : Nat := bx * 8192 + yb

end Sys2Proof.Machine
end

