-- ==== Sys2Proof/Machine/Memory.lean ====
section
/-! DEFINITION. The payload memory `PAYLOAD[0 .. P_PAYLOAD_MAX - 1]` (10_state.md R59, 20_memory.md
R80): the only byte-addressed storage of the engine, as a list of (address, byte) pairs in one
canonical form: the bytes the host has written, addresses strictly rising. -/

namespace Sys2Proof.Machine

/-- The payload bytes the host has written. -/
abbrev Memory := List Host.Cell

/-- What the memory holds at an address: an unlisted address was never written and holds no value of
the program's. -/
def memRead? (m : Memory) (a : Nat) : Option Byte := sparseLookup m a

/-- The byte an access reads: the byte written, or the free content of a byte never written (R59, I8:
any value). -/
def memRead (m : Memory) (a : Nat) : Byte := (memRead? m a).getD (Config.payloadReset a)

/-- The host's write of one byte (R86). -/
def memWrite (m : Memory) (a : Nat) (v : Byte) : Memory := sparseInsert m a v

/-- The canonical form, within the `limit` bytes that exist (R59). -/
abbrev Memory.wf (limit : Nat) (m : Memory) : Prop := sparseSorted m ∧ ∀ c ∈ m, c.1 < limit

end Sys2Proof.Machine
end

