-- ==== Sys2Proof/Machine/State.lean ====
section
/-! DEFINITION. The engine's state as plain data (10_state.md), the two reasons a step can stop, and the
state after power-on reset (70_reset_and_hazards.md R410). -/

namespace Sys2Proof.Machine

/-- The codec of a frame: `FC` = 0 or 1 (R35). -/
inductive Codec where
  | vc1
  | wmv2
deriving DecidableEq, Repr

/-- The frame type `FT`: codes 0 to 4 of R33; no other value is ever latched (R340). -/
inductive FrameType where
  | i
  | p
  | b
  | bi
  | skipped
deriving DecidableEq, Repr

/-- Why a frame is suppressed: the `k` of `SUPPRESSED(k)` (R55). -/
inductive Suppress where
  | noref
  | skipb
  | ix8
deriving DecidableEq, Repr

/-- `FSTATE` (R55). -/
inductive FState where
  | idle
  | opened
  | suppressed (k : Suppress)
  | aborted
deriving DecidableEq, Repr

/-- A motion-vector register: a pair of 32-bit signed values (R44). -/
structure Mv where
  x : Word
  y : Word
deriving DecidableEq, Repr

/-- An entry of `MVBUF` (R49). -/
structure MvCell where
  x : Word
  y : Word
  skipped : Bool
deriving DecidableEq, Repr

/-- The error codes of R382. -/
inductive ErrCode where
  | vlcInvalid
  | coefOverflow
  | symbol
  | underrun
  | hdrShort
  | badCmd
  | seq
  | badCfg
deriving DecidableEq, Repr

/-- A write of the host on a port of R86. -/
inductive PortWrite where
  /-- `CMD`: issue a command word. -/
  | cmd (w : Word)
  /-- `PAYLOAD[a] <- v`. -/
  | payload (a : Nat) (v : Byte)
  /-- `PAYLOAD_LEN <- v`. -/
  | payloadLen (v : Word)
deriving DecidableEq, Repr

/-- The one reason a step stops with a fault. The engine's own errors (R382) are no faults: they are
next states. -/
inductive Fault where
  /-- Raised by the host's write of `PAYLOAD[a]` with `a >= P_PAYLOAD_MAX`, a byte that does not exist
  (R59, R80). Safe: the machine stops. -/
  | noPayloadByte (a : Nat)
deriving DecidableEq, Repr

/-- Why an instruction has no meaning. -/
inductive Refusal where
  /-- Raised by `exec` for an instruction without a meaning; no arm does so. Safe. -/
  | notModelled (mnemonic : String)
deriving DecidableEq, Repr

/-- Everything the spec gives the engine, and two fields of the model's own (`cmd`, `port`). -/
structure State where
  /-- The construction-time parameters the engine holds (R9, R45, R410); never written. `FLAT`, `MAXB`,
  `MAXLEVEL` and `MAXRUN` are views of `params.raw.vlc` (Machine/Vlc.lean). -/
  params : Params
  /-- `CFG[0..31]` (R32). -/
  cfg : Vector (BitVec 16) 32
  /-- `FC` (R35). -/
  fc : Codec
  /-- `FT` (R35). -/
  ft : FrameType
  /-- `MBW` (R36). -/
  mbw : BitVec 12
  /-- `MBH` (R36). -/
  mbh : BitVec 12
  /-- `MBX` (R37). -/
  mbx : BitVec 12
  /-- `MBY` (R37). -/
  mby : BitVec 12
  /-- `MQUANT` (R38). -/
  mquant : BitVec 5
  /-- `MQ_VALID` (R38). -/
  mqValid : Bool
  /-- `BR_POS` (R39). -/
  brPos : Word
  /-- `BR_LEN` (R39). -/
  brLen : Word
  /-- `RES0` (R40). -/
  res0 : Word
  /-- `RES1` (R40). -/
  res1 : Word
  /-- `RES2` (R40). -/
  res2 : Word
  /-- `DCDIFF` (R41). -/
  dcdiff : Word
  /-- `PDIR`, mirrored in `STATUS.DIR`: false = top, true = left (R42). -/
  pdir : Bool
  /-- `COEF[0..63]` (R43). -/
  coef : Vector Word 64
  /-- `PMV` (R44). -/
  pmv : Mv
  /-- `MVF` (R44). -/
  mvf : Mv
  /-- `MVBK` (R44). -/
  mvbk : Mv
  /-- `ESC3_LL` (R46). -/
  esc3LL : BitVec 4
  /-- `ESC3_RL` (R46). -/
  esc3RL : BitVec 4
  /-- `DCB` (R47). -/
  dcb : Grid Word
  /-- `ACROW` (R48). -/
  acrow : Grid Word
  /-- `ACCOL` (R48). -/
  accol : Grid Word
  /-- `MVBUF` (R49). -/
  mvbuf : Grid MvCell
  /-- `CBPB` (R50). -/
  cbpb : Grid Bool
  /-- `RECON` (R54). -/
  recon : Grid Bool
  /-- `CUR` (R52). -/
  cur : Option Frame
  /-- `OUT` (R52). -/
  out : Option Frame
  /-- `REF` (R52). -/
  ref : Option Frame
  /-- `FWD` (R52). -/
  fwd : Option Frame
  /-- `BWD` (R52). -/
  bwd : Option Frame
  /-- `W2REF` (R52). -/
  w2ref : Option Frame
  /-- `WREF0` (R52, R343). -/
  wref0 : Option Frame
  /-- `WREF1` (R52, R343). -/
  wref1 : Option Frame
  /-- `MCBUF[0]` (R53). -/
  mcbuf0 : McBuf
  /-- `MCBUF[1]` (R53). -/
  mcbuf1 : McBuf
  /-- `FSTATE` (R55), seen in `STATUS.FST`. -/
  fstate : FState
  /-- `PREV_RRF` (R56). -/
  prevRrf : Bool
  /-- `STATUS.ERR` (R57). -/
  err : Bool
  /-- `STATUS.ECODE` (R57). -/
  ecode : BitVec 4
  /-- `STATUS.LAST` (R57). -/
  last : Bool
  /-- `STATUS.NOREF` (R57). -/
  noref : Bool
  /-- `STATUS.SKIPB` (R57). -/
  skipb : Bool
  /-- `STATUS.IX8` (R57). -/
  ix8 : Bool
  /-- `ERRCMD` (R58). -/
  errcmd : Word
  /-- `ERRPOS` (R58). -/
  errpos : Word
  /-- `PAYLOAD` (R59). -/
  payload : Memory
  /-- `PAYLOAD_LEN` (R59). -/
  payloadLen : Word
  /-- The model's own (DESIGN CHOICE, log entries 1 and 22): the command word being executed, the `cmd` of R13, which an error copies into
  `ERRCMD` (R380). -/
  cmd : Word
  /-- The model's own (DESIGN CHOICE, log entries 1 and 22): the host's port writes that are still to come, first one first (R31, R86, R90). -/
  port : List PortWrite
deriving DecidableEq, Repr

/-- The machine right after power-on reset (R410). `params` is the instance the engine was built with. -/
def State.reset : State where
  params := Config.params
  cfg := Vector.replicate 32 0
  fc := .vc1
  ft := .i
  mbw := 0
  mbh := 0
  mbx := 0
  mby := 0
  mquant := 0
  mqValid := false
  brPos := 0
  brLen := 0
  res0 := 0
  res1 := 0
  res2 := 0
  dcdiff := 0
  pdir := false
  coef := Vector.replicate 64 0
  pmv := ⟨0, 0⟩
  mvf := ⟨0, 0⟩
  mvbk := ⟨0, 0⟩
  esc3LL := 0
  esc3RL := 0
  dcb := Grid.fresh Config.params.raw.dcSentinelVc1
  acrow := Grid.fresh 0
  accol := Grid.fresh 0
  mvbuf := Grid.fresh ⟨0, 0, true⟩
  cbpb := Grid.fresh false
  recon := Grid.fresh false
  cur := none
  out := none
  ref := none
  fwd := none
  bwd := none
  w2ref := none
  wref0 := none
  wref1 := none
  mcbuf0 := McBuf.zero
  mcbuf1 := McBuf.zero
  fstate := .idle
  prevRrf := false
  err := false
  ecode := 0
  last := false
  noref := false
  skipb := false
  ix8 := false
  errcmd := 0
  errpos := 0
  payload := []
  payloadLen := 0
  cmd := 0
  port := []

end Sys2Proof.Machine
end

