-- ==== Sys2Proof/Machine/Flags.lean ====
section
/-! DEFINITION. The codes of `STATUS` and the status word the host reads (10_state.md R57,
60_exceptions.md R382). -/

namespace Sys2Proof.Machine

/-- The `ECODE` value of an error (R382). -/
def ErrCode.code : ErrCode → BitVec 4
  | .vlcInvalid => 1
  | .coefOverflow => 2
  | .symbol => 3
  | .underrun => 4
  | .hdrShort => 5
  | .badCmd => 6
  | .seq => 7
  | .badCfg => 8

/-- `STATUS.FST` (R57). -/
def FState.fst : FState → BitVec 2
  | .idle => 0
  | .opened => 1
  | .suppressed _ => 2
  | .aborted => 3

/-- `FSTATE in {OPEN, SUPPRESSED(k)}`: a frame is open (R340, R380). -/
def FState.active : FState → Bool
  | .idle => false
  | .opened => true
  | .suppressed _ => true
  | .aborted => false

/-- `IsEmpty()`: the live `STATUS.EMPTY` (R57, R132). -/
def brEmpty (s : State) : Bool := decide (s.brLen.toNat ≤ s.brPos.toNat)

/-- One flag as a bit of the status word. -/
def flagBit (b : Bool) : BitVec 1 := BitVec.ofBool b

/-- The `STATUS` word, from bit 31 down; unlisted bits read 0 (R57). -/
def statusWord (s : State) : Word :=
  0#16 ++ flagBit (brEmpty s) ++ s.fstate.fst ++ flagBit s.ix8 ++ flagBit s.skipb ++ flagBit s.noref
    ++ flagBit s.last ++ flagBit s.pdir ++ s.ecode ++ 0#3 ++ flagBit s.err

end Sys2Proof.Machine
end

