-- ==== Sys2Proof/Syntax.lean ====
section
/-! DEFINITION. The commands of the engine, one constructor per row of spec/opcode_table.json
(30_encoding.md R103). A field has exactly the width R103 gives it; one-bit fields are `Bool`. -/

namespace Sys2Proof

/-- A command: the spec's word for an instruction (R3, R100, R103). -/
inductive Instr where
  /-- 0x00 (R353) -/
  | nop
  /-- 0x01 (R352) -/
  | resize (mbw mbh : BitVec 12)
  /-- 0x02 (R350) -/
  | wrcfg (idx : BitVec 5) (val : BitVec 16)
  /-- 0x03 (R351) -/
  | rdcfg (idx : BitVec 5)
  /-- 0x05 (R340) -/
  | frameBegin (ix8 : Bool)
  /-- 0x06 (R346) -/
  | frameEnd
  /-- 0x07 (R250) -/
  | setMb (mbx mby : BitVec 12)
  /-- 0x08 (R200) -/
  | setMquant (mq : BitVec 5)
  /-- 0x10 (R133) -/
  | brInit (off : BitVec 24)
  /-- 0x11 (R134) -/
  | brReadBit
  /-- 0x12 (R135) -/
  | brReadBits (n : BitVec 6)
  /-- 0x13 (R136) -/
  | brReadSigned (n : BitVec 6)
  /-- 0x14 (R137) -/
  | brPeek (n : BitVec 6)
  /-- 0x15 (R138) -/
  | brSkip (n : BitVec 24)
  /-- 0x16 (R139) -/
  | brBitsLeft
  /-- 0x17 (R140) -/
  | brIsEmpty
  /-- 0x18 (R141) -/
  | brNeed (n : BitVec 24)
  /-- 0x20 (R154) -/
  | vlcDecode (t : BitVec 8)
  /-- 0x21 (R155) -/
  | vlcMaxlevel (t : BitVec 8) (last : Bool) (run : BitVec 6)
  /-- 0x22 (R156) -/
  | vlcMaxrun (t : BitVec 8) (last : Bool) (level : BitVec 8)
  /-- 0x28 (R175) -/
  | dcVc1 (t : BitVec 8)
  /-- 0x29 (R176) -/
  | dcWmv2 (t : BitVec 8)
  /-- 0x2A (R177) -/
  | clrCoef
  /-- 0x2B (R179) -/
  | acSymVc1 (t : BitVec 8)
  /-- 0x2C (R183) -/
  | acBlockVc1 (t : BitVec 8) (sc : BitVec 4) (intra : Bool)
  /-- 0x2D (R182) -/
  | acSymWmv2 (t : BitVec 8)
  /-- 0x2E (R184) -/
  | acBlockWmv2 (t : BitVec 8) (sc : BitVec 4) (intra : Bool)
  /-- 0x2F (R178) -/
  | coefWr (idx : BitVec 6) (v : BitVec 16)
  /-- 0x30 (R203) -/
  | dqVc1 (b : BitVec 3) (intra : Bool)
  /-- 0x31 (R205) -/
  | dqWmv2 (b : BitVec 3) (intra : Bool)
  /-- 0x40, `tt` = 0 (R224) -/
  | idct8x8
  /-- 0x40, `tt` = 1 (R225) -/
  | idct8x4A
  /-- 0x40, `tt` = 2 (R225) -/
  | idct8x4B
  /-- 0x40, `tt` = 3 (R226) -/
  | idct4x8A
  /-- 0x40, `tt` = 4 (R226) -/
  | idct4x8B
  /-- 0x40, `tt` = 5 (R227) -/
  | idct4x4A
  /-- 0x40, `tt` = 6 (R227) -/
  | idct4x4B
  /-- 0x41, `shape` = 0 (R228) -/
  | widct8x8
  /-- 0x41, `shape` = 1 (R228) -/
  | widct8x4
  /-- 0x41, `shape` = 2 (R228) -/
  | widct4x8
  /-- 0x42 (R230) -/
  | blkPut (b : BitVec 3)
  /-- 0x43 (R231) -/
  | blkAdd (b : BitVec 3)
  /-- 0x50 (R254) -/
  | dcpredVc1 (b : BitVec 3)
  /-- 0x51 (R255) -/
  | dcpredWmv2 (b : BitVec 3)
  /-- 0x52 (R256) -/
  | predStore (b : BitVec 3)
  /-- 0x53 (R257) -/
  | acpred (b : BitVec 3)
  /-- 0x54 (R258) -/
  | cbppred (b : BitVec 2) (raw : Bool)
  /-- 0x58 (R260) -/
  | mvpred
  /-- 0x59 (R261) -/
  | setMv (sel addp : Bool) (x y : BitVec 11)
  /-- 0x5A (R262) -/
  | mvstore (skipped : Bool)
  /-- 0x5B (R296) -/
  | mvBdirect
  /-- 0x60 (R293) -/
  | mcBilin (k : Bool)
  /-- 0x61 (R295) -/
  | mcMspel (hshift : Bool)
  /-- 0x62 (R297) -/
  | mcCommit (avg : Bool)
deriving DecidableEq, Repr

end Sys2Proof
end

