-- ==== Sys2Proof/WellFormed.lean ====
section
/-! DEFINITION. The "legal" column of 30_encoding.md R103, so far as it depends on the command word
alone. What it asks of the parameters (`t < NT`, a table's kind, a defined scan id) and of the picture
size (`mbx < MBW`) is checked where the command runs (Machine/Operands.lean). -/

namespace Sys2Proof

/-- A bit count is legal when it is in 0..32 (R103, R135, R136, R137). -/
def legalCount (n : BitVec 6) : Bool := decide (n.toNat ≤ 32)

/-- A block index is legal when it is in 0..5 (R103, R105). -/
def legalBlock (b : BitVec 3) : Bool := decide (b.toNat ≤ 5)

/-- A macroblock quantizer is legal when it is in 1..31 (R103, R200). -/
def legalQuant (mq : BitVec 5) : Bool := decide (1 ≤ mq.toNat)

/-- A picture size is legal when both dimensions are in 1..4095 (R103, R352). -/
def legalSize (mbw mbh : BitVec 12) : Bool := decide (1 ≤ mbw.toNat) && decide (1 ≤ mbh.toNat)

/-- Every field of the command holds a value its row of R103 allows. A command that is not well formed
still has an encoding; running it raises `E_BAD_CMD` (R102, R106). -/
def Instr.wf : Instr → Bool
  | .resize mbw mbh => legalSize mbw mbh
  | .setMquant mq => legalQuant mq
  | .brReadBits n => legalCount n
  | .brReadSigned n => legalCount n
  | .brPeek n => legalCount n
  | .dqVc1 b _ => legalBlock b
  | .dqWmv2 b _ => legalBlock b
  | .blkPut b => legalBlock b
  | .blkAdd b => legalBlock b
  | .dcpredVc1 b => legalBlock b
  | .dcpredWmv2 b => legalBlock b
  | .predStore b => legalBlock b
  | .acpred b => legalBlock b
  | .nop => true
  | .wrcfg _ _ => true
  | .rdcfg _ => true
  | .frameBegin _ => true
  | .frameEnd => true
  | .setMb _ _ => true
  | .brInit _ => true
  | .brReadBit => true
  | .brSkip _ => true
  | .brBitsLeft => true
  | .brIsEmpty => true
  | .brNeed _ => true
  | .vlcDecode _ => true
  | .vlcMaxlevel _ _ _ => true
  | .vlcMaxrun _ _ _ => true
  | .dcVc1 _ => true
  | .dcWmv2 _ => true
  | .clrCoef => true
  | .acSymVc1 _ => true
  | .acBlockVc1 _ _ _ => true
  | .acSymWmv2 _ => true
  | .acBlockWmv2 _ _ _ => true
  | .coefWr _ _ => true
  | .idct8x8 => true
  | .idct8x4A => true
  | .idct8x4B => true
  | .idct4x8A => true
  | .idct4x8B => true
  | .idct4x4A => true
  | .idct4x4B => true
  | .widct8x8 => true
  | .widct8x4 => true
  | .widct4x8 => true
  | .cbppred _ _ => true
  | .mvpred => true
  | .setMv _ _ _ _ => true
  | .mvstore _ => true
  | .mvBdirect => true
  | .mcBilin _ => true
  | .mcMspel _ => true
  | .mcCommit _ => true

end Sys2Proof
end

