-- ==== Sys2Proof/Machine/Operands.lean ====
section
/-! DEFINITION. Operand forms: configuration fields (10_state.md R33), parameter tables named by an
operand (30_encoding.md R103, R105), and the placement and neighbours of a block (45_prediction.md R251,
R252). -/

namespace Sys2Proof.Machine

/-! ## Configuration fields -/

/-- The low `n` bits of `CFG[idx]`; every field of R33 starts at bit 0. -/
def cfgLow (s : State) (idx : Fin 32) (n : Nat) : Nat := (s.cfg[idx]).toNat % 2 ^ n

/-- `CODEC` (R33). -/
def cfgCodec (s : State) : Codec := if cfgLow s 0 1 = 0 then .vc1 else .wmv2
/-- `FRAME_TYPE` (R33). -/
def cfgFrameType (s : State) : Nat := cfgLow s 1 3
/-- `PQUANT` (R33). -/
def cfgPquant (s : State) : Nat := cfgLow s 2 5
/-- `HALFQP` (R33). -/
def cfgHalfqp (s : State) : Bool := cfgLow s 3 1 == 1
/-- `QMODE` (R33): true = non-uniform. -/
def cfgQmode (s : State) : Bool := cfgLow s 4 1 == 1
/-- `OVERLAP` (R33). -/
def cfgOverlap (s : State) : Bool := cfgLow s 5 1 == 1
/-- `LOOPFILTER` (R33). -/
def cfgLoopfilter (s : State) : Bool := cfgLow s 6 1 == 1
/-- `RANGERED` (R33). -/
def cfgRangered (s : State) : Bool := cfgLow s 7 1 == 1
/-- `RANGEREDFRM` (R33). -/
def cfgRangeredfrm (s : State) : Bool := cfgLow s 8 1 == 1
/-- `DQUANT` (R33). -/
def cfgDquant (s : State) : Nat := cfgLow s 9 2
/-- `FASTUVMC` (R33). -/
def cfgFastuvmc (s : State) : Bool := cfgLow s 15 1 == 1
/-- `BFRAC_NUM` (R33). -/
def cfgBfracNum (s : State) : Nat := cfgLow s 17 8
/-- `BFRAC_DEN` (R33). -/
def cfgBfracDen (s : State) : Nat := cfgLow s 18 8
/-- `W2_SKIPPED` (R33). -/
def cfgW2Skipped (s : State) : Bool := cfgLow s 20 1 == 1

/-! ## Informational configuration fields: no command reads them (R33, R34) -/

/-- `VSTRANSFORM` (R33). -/
def cfgVstransform (s : State) : Nat := cfgLow s 10 1
/-- `TRANSACFRM` (R33). -/
def cfgTransacfrm (s : State) : Nat := cfgLow s 11 2
/-- `TRANSACFRM2` (R33). -/
def cfgTransacfrm2 (s : State) : Nat := cfgLow s 12 2
/-- `MVTAB` (R33). -/
def cfgMvtab (s : State) : Nat := cfgLow s 13 3
/-- `CBPTAB` (R33). -/
def cfgCbptab (s : State) : Nat := cfgLow s 14 3
/-- `MVRANGE` (R33). -/
def cfgMvrange (s : State) : Nat := cfgLow s 16 2
/-- `HEADER_BITS` (R33). -/
def cfgHeaderBits (s : State) : Nat := cfgLow s 19 16

/-- The WMV2 extradata word `EX` (R34, R83). -/
def extradata (s : State) : Word := s.cfg[(22 : Fin 32)] ++ s.cfg[(23 : Fin 32)]
/-- `fps` (R34). -/
def exFps (ex : Word) : BitVec 5 := ex.extractLsb' 27 5
/-- `bitrate_k` (R34). -/
def exBitrateK (ex : Word) : BitVec 11 := ex.extractLsb' 16 11
/-- `mspel` (R34). -/
def exMspel (ex : Word) : Bool := ex.getLsbD 15
/-- `w2_loopfilter` (R34). -/
def exLoopfilter (ex : Word) : Bool := ex.getLsbD 14
/-- `abt_flag` (R34). -/
def exAbtFlag (ex : Word) : Bool := ex.getLsbD 13
/-- `j_type_bit` (R34). -/
def exJTypeBit (ex : Word) : Bool := ex.getLsbD 12
/-- `top_left_mv_flag` (R34). -/
def exTopLeftMvFlag (ex : Word) : Bool := ex.getLsbD 11
/-- `per_mb_rl_bit` (R34). -/
def exPerMbRlBit (ex : Word) : Bool := ex.getLsbD 10
/-- `slice_code` (R34). -/
def exSliceCode (ex : Word) : BitVec 3 := ex.extractLsb' 7 3
/-- `slice_height`, present when `slice_code != 0` (R34). -/
def exSliceHeight (s : State) : Option Nat :=
  if exSliceCode (extradata s) = 0 then none
  else some (s.mbh.toNat / (exSliceCode (extradata s)).toNat)

/-! ## Parameter tables named by an operand -/

/-- Table `t` when `t < NT` (R103). -/
def vlcTable (p : Params) (t : BitVec 8) : Option VlcTable := p.raw.vlc[t.toNat]?

/-- The entries of table `t` when it exists and has kind AC (R103). -/
def acTable (p : Params) (t : BitVec 8) : Option (List (VlcEntry AcSym)) :=
  match vlcTable p t with
  | some (.ac es) => some es
  | some (.scalar _) => none
  | none => none

/-- The entries of table `t` when it exists and has kind SCALAR (R103). -/
def scalarTable (p : Params) (t : BitVec 8) : Option (List (VlcEntry Nat)) :=
  match vlcTable p t with
  | some (.scalar es) => some es
  | some (.ac _) => none
  | none => none

/-- Scan table `s` when it is defined in `P_SCAN` (R103, R170). -/
def scanTable (p : Params) (sc : BitVec 4) : Option (List Nat) := (p.raw.scan[sc.toNat]?).join

/-- Entry `q` of a quantizer-indexed table (R9); the tables have 32 entries and `q` has 5 bits. -/
def stepAt (l : List Int) (q : Nat) : Int := l.getD q 0

/-! ## Blocks -/

/-- The plane that holds block `b` (R105, R251). -/
def blockPlane (b : Nat) : PlaneId := if b < 4 then .y else if b = 4 then .cb else .cr

/-- The column of block `b` of macroblock `(mx, my)` in its plane (R251). -/
def blockX (mx b : Nat) : Nat := if b < 4 then 16 * mx + 8 * (b % 2) else 8 * mx

/-- The row of block `b` of macroblock `(mx, my)` in its plane (R251). -/
def blockY (my b : Nat) : Nat := if b < 4 then 16 * my + 8 * (b / 2) else 8 * my

/-- The block-grid column of luma block `b` (R251). -/
def gridX (mx b : Nat) : Nat := 2 * mx + b % 2

/-- The block-grid row of luma block `b` (R251). -/
def gridY (my b : Nat) : Nat := 2 * my + b / 2

/-- A slot `(mx, my, b)` of the predictor buffers (R252). -/
structure Slot where
  mx : Nat
  my : Nat
  b : Nat
deriving DecidableEq, Repr

/-- The key of a slot's entry in `DCB`. -/
def Slot.key (n : Slot) : Nat := blockKey n.mx n.my n.b

/-- `LumaSlot(bx, by)`: the slot at a block-grid coordinate, or outside (R252). -/
def lumaSlot (bx yb : Int) : Option Slot :=
  if bx < 0 ∨ yb < 0 then none
  else some ⟨bx.toNat / 2, yb.toNat / 2, bx.toNat % 2 + 2 * (yb.toNat % 2)⟩

/-- The slot of chroma block `b` at macroblock `(mx, my)`, or outside (R252). -/
def chromaSlot (mx my : Int) (b : Nat) : Option Slot :=
  if mx < 0 ∨ my < 0 then none else some ⟨mx.toNat, my.toNat, b⟩

/-- The neighbour of block `b` of macroblock `(mx, my)` that lies `dx` columns and `dy` rows before it:
on the 8×8 block grid for luma, on the macroblock grid for chroma (R252). -/
def neighbour (mx my b : Nat) (dx dy : Int) : Option Slot :=
  if b < 4 then lumaSlot (gridX mx b - dx) (gridY my b - dy) else chromaSlot (mx - dx) (my - dy) b

/-- `Left(b)` (R252). -/
def leftOf (s : State) (b : Nat) : Option Slot := neighbour s.mbx.toNat s.mby.toNat b 1 0

/-- `Top(b)` (R252). -/
def topOf (s : State) (b : Nat) : Option Slot := neighbour s.mbx.toNat s.mby.toNat b 0 1

/-- `TopLeft(b)` (R252). -/
def topLeftOf (s : State) (b : Nat) : Option Slot := neighbour s.mbx.toNat s.mby.toNat b 1 1

/-- The coefficient at index `i` of `COEF` as a signed integer (R43). -/
def coefAt (v : Vector Word 64) (k : Nat) : Int := BitVec.toInt (v[k]?.getD 0)

/-- `COEF[i] <- v` (R15, R43). -/
def setCoef (c : Vector Word 64) (i : Nat) (v : Int) : Vector Word 64 := c.setIfInBounds i (i32 v)

/-- The coefficient buffer whose element `i` is `f i`. -/
def buildCoef (f : Nat → Int) : Vector Word 64 := Vector.ofFn fun i : Fin 64 => i32 (f i.val)

end Sys2Proof.Machine
end

