-- ==== Sys2Proof/Machine/Ops.lean ====
section
/-! DEFINITION. The named operations every command is built from: raising an error, which is this
engine's exception entry, and clearing it (60_exceptions.md R380, R381, R385); running a command's rule;
the bit reader (40_bitreader.md R132); the preconditions of the block, predictor and MC commands. -/

namespace Sys2Proof.Machine

/-! ## Errors -/

/-- The state part of `raise E` (R380): the first error since the last clear is recorded, and an open
frame is aborted. -/
def raise (e : ErrCode) (s : State) : State :=
  { s with
    err := true
    ecode := if s.err then s.ecode else e.code
    errcmd := if s.err then s.errcmd else s.cmd
    errpos := if s.err then s.errpos else s.brPos
    fstate := if s.fstate.active then .aborted else s.fstate }

/-- The return from an error: what `FRAME_BEGIN` and `RESIZE` clear, and nothing else does (R385). -/
def clearError (s : State) : State :=
  { s with err := false, ecode := 0, errcmd := 0, errpos := 0 }

/-! ## Running a rule -/

/-- A rule's pseudocode: it goes through states in order and may end at a `raise`, keeping the effects
it made before (R16, R380). -/
abbrev Engine (α : Type) := EStateM ErrCode State α

/-- A step of pseudocode that changes the state. -/
def update (f : State → State) : Engine Unit := fun s => .ok () (f s)

/-- A step of pseudocode that reads the state. -/
def look {α : Type} (f : State → α) : Engine α := fun s => .ok (f s) s

/-- `raise E` inside pseudocode (R380). -/
def fail {α : Type} (e : ErrCode) : Engine α := fun s => .error e s

/-- The outcome of a rule run to its end or to its `raise`: always a next state (R384). -/
def finish (m : Engine Unit) (s : State) : Host.Outcome State Fault Refusal :=
  match m s with
  | .ok _ t => .next t
  | .error e t => .next (raise e t)

/-- A rule that its "legal" check admits, or `none`: an illegal encoding (R102, R383). -/
def legalWhen (legal : Bool) (m : Engine Unit) : Option (Engine Unit) := if legal then some m else none

/-- One of the six commands that execute even while `STATUS.ERR = 1` (R381). -/
def always (rule : Option (Engine Unit)) (s : State) : Host.Outcome State Fault Refusal :=
  match rule with
  | some m => finish m s
  | none => .next (raise .badCmd s)

/-- Any other command: without effect while `STATUS.ERR = 1` (R381), else its encoding is checked first
(R383). -/
def command (rule : Option (Engine Unit)) (s : State) : Host.Outcome State Fault Refusal :=
  if s.err then .next s else always rule s

/-- A command word that is no command of R103 (R102, R106); without effect under an error (DEDUCED, log entry
10). -/
def illegalCommand (s : State) : Host.Outcome State Fault Refusal := command none s

/-! ## The bit reader -/

/-- `PayloadBit(i)` (R81). -/
def payloadBit (s : State) (i : Nat) : Nat :=
  if i < s.brLen.toNat then bit01 ((memRead s.payload (i / 8)).getLsbD (7 - i % 8)) else 0

/-- The `n` payload bits from position `pos`, first bit most significant (R82, R132). -/
def bitsFrom (s : State) (pos : Nat) : Nat → Nat
  | 0 => 0
  | n + 1 => 2 * bitsFrom s pos n + payloadBit s (pos + n)

/-- `PeekBits(n)` (R132). -/
def peekBits (s : State) (n : Nat) : Nat := bitsFrom s s.brPos.toNat n

/-- `SkipBits(n)`, saturating at `2^32 - 1` (R131, R132). -/
def skipBits (n : Nat) (s : State) : State :=
  { s with brPos := n32 (min (s.brPos.toNat + n) (2 ^ 32 - 1)) }

/-- `BitsLeft()` (R132). -/
def bitsLeft (s : State) : Nat := s.brLen.toNat - s.brPos.toNat

/-- `ReadBits(n)` (R132). -/
def readBits (n : Nat) : Engine Nat := fun s => .ok (peekBits s n) (skipBits n s)

/-- `ReadBit()` as a flag (R132). -/
def readBit : Engine Bool := fun s => .ok (peekBits s 1 == 1) (skipBits 1 s)

/-! ## Preconditions -/

/-- The predictor commands raise `E_SEQ` while there is no picture size (45_prediction.md, opening;
R36). -/
def needPicture : Engine Unit := fun s => if s.mbw = 0 then .error .seq s else .ok () s

/-- A command that writes pixels: nothing while the frame is suppressed, `E_SEQ` with no open frame,
else its rule with `CUR` (R229, R342). `ABORTED` without an error is met in no run (DEDUCED, log entry 9). -/
def pixelCommand (rule : Frame → Engine Unit) : Engine Unit := fun s =>
  match s.fstate, s.cur with
  | .suppressed _, _ => .ok () s
  | .opened, some f => rule f s
  | .opened, none => .error .seq s
  | .idle, _ => .error .seq s
  | .aborted, _ => .error .seq s

/-- `RECON[MBX][MBY] <- 1` (R54). -/
def markRecon (s : State) : Grid Bool := s.recon.write (mbKey s.mbx.toNat s.mby.toNat) true

end Sys2Proof.Machine
end

