-- ==== Sys2Proof/Machine/BitReader.lean ====
section
/-! DEFINITION. The bit reader commands (40_bitreader.md R133 to R141). -/

namespace Sys2Proof.Machine

/-- `BR_INIT off` (R133). `BR_LEN` keeps 32 bits of the product (DEDUCED, log entry 12). -/
def execBrInit (off : BitVec 24) (s : State) : Host.Outcome State Fault Refusal :=
  command (some <| update fun s =>
    { s with brLen := n32 (8 * s.payloadLen.toNat), brPos := n32 off.toNat }) s

/-- `BR_READ_BIT` (R134). -/
def execBrReadBit (s : State) : Host.Outcome State Fault Refusal :=
  command (some do
    let b ← readBit
    update fun s => { s with res0 := n32 (bit01 b) }) s

/-- `BR_READ_BITS n` (R135). -/
def execBrReadBits (n : BitVec 6) (s : State) : Host.Outcome State Fault Refusal :=
  command (legalWhen (legalCount n) do
    let v ← readBits n.toNat
    update fun s => { s with res0 := n32 v }) s

/-- `BR_READ_SIGNED n` (R136). -/
def execBrReadSigned (n : BitVec 6) (s : State) : Host.Outcome State Fault Refusal :=
  command (legalWhen (legalCount n) do
    let v ← readBits n.toNat
    update fun s => { s with res0 := i32 (sextN n.toNat v) }) s

/-- `BR_PEEK n` (R137). -/
def execBrPeek (n : BitVec 6) (s : State) : Host.Outcome State Fault Refusal :=
  command (legalWhen (legalCount n) <| update fun s =>
    { s with res0 := n32 (peekBits s n.toNat) }) s

/-- `BR_SKIP n` (R138). -/
def execBrSkip (n : BitVec 24) (s : State) : Host.Outcome State Fault Refusal :=
  command (some <| update (skipBits n.toNat)) s

/-- `BR_BITS_LEFT` (R139). -/
def execBrBitsLeft (s : State) : Host.Outcome State Fault Refusal :=
  command (some <| update fun s => { s with res0 := n32 (bitsLeft s) }) s

/-- `BR_IS_EMPTY` (R140). -/
def execBrIsEmpty (s : State) : Host.Outcome State Fault Refusal :=
  command (some <| update fun s => { s with res0 := n32 (bit01 (brEmpty s)) }) s

/-- The rule of `BR_NEED` (R141). -/
def brNeedRule (n : Nat) : Engine Unit := fun s =>
  if bitsLeft s < n then .error .hdrShort s else .ok () s

/-- `BR_NEED n` (R141). -/
def execBrNeed (n : BitVec 24) (s : State) : Host.Outcome State Fault Refusal :=
  command (some (brNeedRule n.toNat)) s

end Sys2Proof.Machine
end

