-- ==== Sys2Proof/Machine/Vlc.lean ====
section
/-! DEFINITION. The VLC decoder (41_vlc.md): the tables derived at construction (R151, R152), the decode
function (R153) and its three commands (R154 to R156). The derived tables are views of `P_VLC`: no
command writes them (10_state.md R45; DEDUCED, log entry 15). -/

namespace Sys2Proof.Machine

/-- `MAXB[t]`: the largest code length of a table (R151). -/
def maxBits {σ : Type} (es : List (VlcEntry σ)) : Nat := maxOver es VlcEntry.len

/-- The index `i` of the flat table is one of those that entry `e` fills: `(c << (MAXB - L)) | u` for a
suffix `u` of `MAXB - L` bits (R151). -/
def covers {σ : Type} (maxb : Nat) (e : VlcEntry σ) (i : Nat) : Bool :=
  decide (i >>> (maxb - e.len) = e.code)

/-- `FLAT[t][i]`: the entry that fills index `i`, if any (R151). The codes are prefix-free, so at most
one does. -/
def flatEntry {σ : Type} (es : List (VlcEntry σ)) (i : Nat) : Option (VlcEntry σ) :=
  es.find? fun e => covers (maxBits es) e i

/-- The level of a symbol `(run, level, last)` with the given `run` and `last`, else 0 (R152). -/
def levelOf (last : Bool) (run : Nat) : AcSym → Nat
  | .rle r l f => if r = run ∧ f = last then l else 0
  | .esc => 0

/-- The run of a symbol `(run, level, last)` with the given `level` and `last`, else 0 (R152). -/
def runOf (last : Bool) (level : Nat) : AcSym → Nat
  | .rle r l f => if l = level ∧ f = last then r else 0
  | .esc => 0

/-- `MAXLEVEL[t][last][run]` (R152). -/
def maxLevel (es : List (VlcEntry AcSym)) (last : Bool) (run : Nat) : Nat :=
  maxOver es fun e => levelOf last run e.sym

/-- `MAXRUN[t][last][level]` (R152). -/
def maxRun (es : List (VlcEntry AcSym)) (last : Bool) (level : Nat) : Nat :=
  maxOver es fun e => runOf last level e.sym

/-- `VlcDecode(t)`: the symbol and its code length, the cursor moved past the code (R153). -/
def decodeSym {σ : Type} (es : List (VlcEntry σ)) : Engine (VlcEntry σ) := fun s =>
  match flatEntry es (peekBits s (maxBits es)) with
  | none => .error .vlcInvalid s
  | some e => .ok e (skipBits e.len s)

/-- `Pack` of an AC symbol (R154). -/
def packSym : AcSym → Word
  | .rle run level last => n32 (bit01 last * 2 ^ 16 + run * 2 ^ 8 + level)
  | .esc => 0xFFFFFFFF

/-- `RES0 <- Pack(sym); RES1 <- L` (R154). -/
def vlcResult {σ : Type} (pack : σ → Word) (es : List (VlcEntry σ)) : Engine Unit := do
  let e ← decodeSym es
  update fun s => { s with res0 := pack e.sym, res1 := n32 e.len }

/-- `VLC_DECODE t` (R154). -/
def execVlcDecode (t : BitVec 8) (s : State) : Host.Outcome State Fault Refusal :=
  command
    ((vlcTable s.params t).map fun
      | .ac es => vlcResult packSym es
      | .scalar es => vlcResult n32 es) s

/-- `VLC_MAXLEVEL t, last, run` (R155). -/
def execVlcMaxlevel (t : BitVec 8) (last : Bool) (run : BitVec 6) (s : State) :
    Host.Outcome State Fault Refusal :=
  command ((acTable s.params t).map fun es =>
    update fun s => { s with res0 := n32 (maxLevel es last run.toNat) }) s

/-- `VLC_MAXRUN t, last, level` (R156). -/
def execVlcMaxrun (t : BitVec 8) (last : Bool) (level : BitVec 8) (s : State) :
    Host.Outcome State Fault Refusal :=
  command ((acTable s.params t).map fun es =>
    update fun s => { s with res0 := n32 (maxRun es last level.toNat) }) s

end Sys2Proof.Machine
end

