-- ==== Sys2Proof/Machine/Coefficients.lean ====
section
/-! DEFINITION. The coefficient decoder (42_coefficients.md): DC differentials (R174 to R176), AC
symbols with their escape modes (R179 to R182), whole blocks (R172, R183, R184) and the buffer commands
(R177, R178). -/

namespace Sys2Proof.Machine

/-- A DC or AC symbol decode that starts with no bit left raises `E_UNDERRUN` (R173). -/
def needBits : Engine Unit := fun s => if brEmpty s then .error .underrun s else .ok () s

/-! ## DC -/

/-- `DcExtend(raw, size)` (R174). -/
def dcExtend (raw size : Nat) : Int :=
  if size = 0 then 0
  else if raw.testBit (size - 1) then (raw : Int) else (raw : Int) - 2 ^ size + 1

/-- `DCDIFF <- v; RES0 <- DCDIFF` (R175, R176). -/
def setDcdiff (v : Int) : Engine Unit := update fun s => { s with dcdiff := i32 v, res0 := i32 v }

/-- The rule of `DC_VC1` (R175). -/
def dcVc1Rule (es : List (VlcEntry Nat)) : Engine Unit := do
  needBits
  let e ← decodeSym es
  if 31 < e.sym then fail .symbol else do
    let raw ← readBits e.sym
    setDcdiff (dcExtend raw e.sym)

/-- `DC_VC1 t` (R175). -/
def execDcVc1 (t : BitVec 8) (s : State) : Host.Outcome State Fault Refusal :=
  command ((scalarTable s.params t).map dcVc1Rule) s

/-- The sentinel magnitude after which an 8-bit absolute value follows (R176). -/
def dcMax : Nat := 119

/-- The rule of `DC_WMV2` (R176). -/
def dcWmv2Rule (es : List (VlcEntry Nat)) : Engine Unit := do
  needBits
  let e ← decodeSym es
  if dcMax < e.sym then fail .symbol
  else if e.sym = dcMax then do
    let m ← readBits 8
    let neg ← readBit
    setDcdiff (signed neg m)
  else if e.sym ≠ 0 then do
    let neg ← readBit
    setDcdiff (signed neg e.sym)
  else setDcdiff 0

/-- `DC_WMV2 t` (R176). -/
def execDcWmv2 (t : BitVec 8) (s : State) : Host.Outcome State Fault Refusal :=
  command ((scalarTable s.params t).map dcWmv2Rule) s

/-! ## The coefficient buffer -/

/-- `CLR_COEF` (R177). -/
def execClrCoef (s : State) : Host.Outcome State Fault Refusal :=
  command (some <| update fun s => { s with coef := buildCoef fun _ => 0 }) s

/-- `COEF_WR i, v` (R178). -/
def execCoefWr (idx : BitVec 6) (v : BitVec 16) (s : State) : Host.Outcome State Fault Refusal :=
  command (some <| update fun s => { s with coef := setCoef s.coef idx.toNat v.toInt }) s

/-! ## AC symbols -/

/-- A decoded symbol: run, signed level, last flag. -/
structure RunLevel where
  run : Nat
  level : Int
  last : Bool
deriving DecidableEq, Repr

/-- Re-decodes a symbol after an escape; a second `ESC` raises `E_SYMBOL` (R180, R182). -/
def decodeRle (es : List (VlcEntry AcSym)) : Engine (Nat × Nat × Bool) := do
  let e ← decodeSym es
  match e.sym with
  | .rle run level last => pure (run, level, last)
  | .esc => fail .symbol

/-- A non-escape symbol is followed by its sign bit (R179, R182). -/
def plainSym (run mag : Nat) (last : Bool) : Engine RunLevel := do
  let neg ← readBit
  pure ⟨run, signed neg mag, last⟩

/-- The level-offset escape: VC-1 mode 1 and WMV2 escape 1 (R180, R182). -/
def escLevel (es : List (VlcEntry AcSym)) : Engine RunLevel := do
  let (run, base, last) ← decodeRle es
  let neg ← readBit
  pure ⟨run, signed neg (base + maxLevel es last run + 1), last⟩

/-- The run-offset escape: VC-1 mode 2 and WMV2 escape 2 (R180, R182). -/
def escRun (es : List (VlcEntry AcSym)) : Engine RunLevel := do
  let (brun, mag, last) ← decodeRle es
  let neg ← readBit
  pure ⟨min (brun + maxRun es last mag + 1) 63, signed neg mag, last⟩

/-- The absolute escape of VC-1, mode 3 (R180). -/
def escAbsVc1 : Engine RunLevel := do
  let last ← readBit
  let run ← readBits 6
  let mag ← readBits 8
  let neg ← readBit
  pure ⟨run, signed neg mag, last⟩

/-- `EscVc1(t)` (R180): prefix 0, 10 or 11. -/
def escVc1 (es : List (VlcEntry AcSym)) : Engine RunLevel := do
  let b0 ← readBit
  if b0 = false then escLevel es else do
    let b1 ← readBit
    if b1 = false then escRun es else escAbsVc1

/-- `AcSymVc1(t)` (R179). -/
def acSymVc1 (es : List (VlcEntry AcSym)) : Engine RunLevel := do
  needBits
  let e ← decodeSym es
  match e.sym with
  | .rle run mag last => plainSym run mag last
  | .esc => escVc1 es

/-- Counts the 0 bits before the next 1 bit up to `ll` = 8, and takes that 1 bit (R181); `fuel` bounds
the loop, which ends within 8 iterations. -/
def countZeros : Nat → Nat → Engine Nat
  | 0, ll => pure ll
  | fuel + 1, ll => fun s =>
    if ll < 8 then
      if peekBits s 1 = 0 then countZeros fuel (ll + 1) (skipBits 1 s) else .ok ll (skipBits 1 s)
    else .ok ll s

/-- `Esc3Lengths()` (R181), as its pseudocode says (DEDUCED, log entry 17). -/
def esc3Lengths : Engine Unit := do
  let q ← look cfgPquant
  let ll ←
    if q < 8 then do
      let l3 ← readBits 3
      if l3 = 0 then countZeros 9 0 else pure l3
    else countZeros 9 2
  update fun s => { s with esc3LL := BitVec.ofNat 4 ll }
  let rl ← readBits 2
  update fun s => { s with esc3RL := BitVec.ofNat 4 (rl + 3) }

/-- The absolute escape of WMV2, escape 3 (R182). -/
def escAbsWmv2 : Engine RunLevel := do
  let last ← readBit
  let ll ← look State.esc3LL
  if ll = 0 then esc3Lengths else pure ()
  let ll ← look State.esc3LL
  let rl ← look State.esc3RL
  let run ← readBits rl.toNat
  let neg ← readBit
  let mag ← readBits ll.toNat
  pure ⟨run, signed neg mag, last⟩

/-- The escapes of WMV2 (R182): prefix 1, 01 or 00. -/
def escWmv2 (es : List (VlcEntry AcSym)) : Engine RunLevel := do
  let b0 ← readBit
  if b0 = true then escLevel es else do
    let b1 ← readBit
    if b1 = true then escRun es else escAbsWmv2

/-- `AcSymWmv2(t)` (R182). -/
def acSymWmv2 (es : List (VlcEntry AcSym)) : Engine RunLevel := do
  needBits
  let e ← decodeSym es
  match e.sym with
  | .rle run mag last => plainSym run mag last
  | .esc => escWmv2 es

/-- The results of an `AC_SYM_*` command (R179, R182). -/
def acSymResult (sym : Engine RunLevel) : Engine Unit := do
  let r ← sym
  update fun s =>
    { s with res0 := n32 r.run, res1 := i32 r.level, res2 := n32 (bit01 r.last), last := r.last }

/-- `AC_SYM_VC1 t` (R179). -/
def execAcSymVc1 (t : BitVec 8) (s : State) : Host.Outcome State Fault Refusal :=
  command ((acTable s.params t).map fun es => acSymResult (acSymVc1 es)) s

/-- `AC_SYM_WMV2 t` (R182). -/
def execAcSymWmv2 (t : BitVec 8) (s : State) : Host.Outcome State Fault Refusal :=
  command ((acTable s.params t).map fun es => acSymResult (acSymWmv2 es)) s

/-! ## Whole blocks -/

/-- `Place(s, run, level)` from index `idx`: the new index (R172). -/
def place (scan : List Nat) (idx : Int) (run : Nat) (level : Int) : Engine Int := fun s =>
  let idx' := idx + run + 1
  if (scan.length : Int) ≤ idx' then .error .coefOverflow s
  else .ok idx' { s with coef := setCoef s.coef (scan.getD idx'.toNat 0) level }

/-- The repeat loop of R183 from index `idx` after `n` symbols. The index rises by at least 1 per
symbol, so `fuel` = length of the scan + 1 never runs out (R183: at most `len(s)` times; DEDUCED, log entry
16). -/
def acLoop (sym : Engine RunLevel) (scan : List Nat) : Nat → Int → Nat → Engine (Int × Nat)
  | 0, _, _ => fail .coefOverflow
  | fuel + 1, idx, n => do
    let r ← sym
    let idx' ← place scan idx r.run r.level
    update fun s => { s with last := r.last }
    if r.last then pure (idx', n + 1) else acLoop sym scan fuel idx' (n + 1)

/-- The index a block starts from (R171). -/
def startIdx (intra : Bool) : Int := if intra then 0 else -1

/-- The rule of the `AC_BLOCK_*` commands for a symbol function (R183, R184). -/
def acBlockRule (sym : Engine RunLevel) (scan : List Nat) (intra : Bool) : Engine Unit := do
  let (idx, n) ← acLoop sym scan (scan.length + 1) (startIdx intra) 0
  update fun s => { s with res0 := i32 idx, res1 := n32 n }

/-- `AC_BLOCK_VC1 t, s, intra` (R183). -/
def execAcBlockVc1 (t : BitVec 8) (sc : BitVec 4) (intra : Bool) (s : State) :
    Host.Outcome State Fault Refusal :=
  command ((acTable s.params t).bind fun es => (scanTable s.params sc).map fun scan =>
    acBlockRule (acSymVc1 es) scan intra) s

/-- `AC_BLOCK_WMV2 t, s, intra` (R184). -/
def execAcBlockWmv2 (t : BitVec 8) (sc : BitVec 4) (intra : Bool) (s : State) :
    Host.Outcome State Fault Refusal :=
  command ((acTable s.params t).bind fun es => (scanTable s.params sc).map fun scan =>
    acBlockRule (acSymWmv2 es) scan intra) s

end Sys2Proof.Machine
end

