-- ==== Sys2Proof/Machine/Filters.lean ====
section
/-! DEFINITION. The overlap and loop filters that `FRAME_END` runs (47_filters.md). The filters of one
pass touch disjoint samples (R326), so a pass is written as one function of the sample's place (DEDUCED, log
entry 14). -/

namespace Sys2Proof.Machine

/-- A boundary filter: the four samples `p1, p2 | p3, p4` across a boundary give the new `p2` and `p3`. -/
structure EdgePair where
  before : Int
  after : Int
deriving DecidableEq, Repr

/-- The overlap filter of the two samples `a | b` next to the boundary (R323). -/
def overlapPair (_p1 a b _p4 : Int) : EdgePair where
  before := asr (9 * a + 3 * b + 8) 4
  after := asr (3 * a + 9 * b + 8) 4

/-- `delta` of the loop filter (R324). -/
def loopDelta (p1 p2 p3 p4 : Int) : Int :=
  clamp (asr (p1 - 2 * p2 + 2 * p3 - p4 + 4) 3) (-p2) (255 - p3)

/-- The loop filter of one sample line (R324). -/
def loopPair (p1 p2 p3 p4 : Int) : EdgePair where
  before := clamp (p2 + loopDelta p1 p2 p3 p4) 0 255
  after := clamp (p3 - loopDelta p1 p2 p3 p4) 0 255

/-- The macroblock that holds sample `(x, y)` of plane `p` has `RECON = 1` (R320). -/
def reconAt (recon : Grid Bool) (p : PlaneId) (x y : Nat) : Bool :=
  recon.read (mbKey (x / p.unit) (y / p.unit))

/-- A sample as an integer. -/
def pixInt (f : Frame) (p : PlaneId) (x y : Nat) : Int := (f.pix p x y).toNat

/-- The new sample at place `x` of a line of `len` samples, for a boundary filter `k`, the line's
samples `at'` and the marks of the macroblocks that hold them (R320): the sample before a boundary has
`x % 8 = 7`, the one after it `x % 8 = 0`, and the outer edges are no boundaries. -/
def filterLine (k : Int → Int → Int → Int → EdgePair) (len : Nat) (marked : Nat → Bool)
    (at' : Nat → Int) (x : Nat) : Int :=
  if x % 8 = 7 ∧ x + 1 < len ∧ marked x = true ∧ marked (x + 1) = true then
    (k (at' (x - 1)) (at' x) (at' (x + 1)) (at' (x + 2))).before
  else if x % 8 = 0 ∧ 0 < x ∧ marked (x - 1) = true ∧ marked x = true then
    (k (at' (x - 2)) (at' (x - 1)) (at' x) (at' (x + 1))).after
  else at' x

/-- All vertical boundaries of every plane (R320, R322). -/
def verticalPass (k : Int → Int → Int → Int → EdgePair) (recon : Grid Bool) (f : Frame) : Frame :=
  f.mapPix fun p x y _ =>
    u8 (filterLine k (f.width p) (fun u => reconAt recon p u y) (fun u => pixInt f p u y) x)

/-- All horizontal boundaries of every plane (R320, R322). -/
def horizontalPass (k : Int → Int → Int → Int → EdgePair) (recon : Grid Bool) (f : Frame) : Frame :=
  f.mapPix fun p x y _ =>
    u8 (filterLine k (f.height p) (fun v => reconAt recon p x v) (fun v => pixInt f p x v) y)

/-- One stage: the vertical boundaries first, then the horizontal ones on their output (R322). -/
def filterStage (k : Int → Int → Int → Int → EdgePair) (recon : Grid Bool) (f : Frame) : Frame :=
  horizontalPass k recon (verticalPass k recon f)

/-- `OverlapOn` (R321). -/
def overlapOn (s : State) : Bool :=
  decide (s.fc = .vc1) && decide (s.ft ≠ .skipped) && cfgOverlap s && decide (9 ≤ cfgPquant s)

/-- `LoopOn` (R321). -/
def loopOn (s : State) : Bool :=
  decide (s.fc = .vc1) && decide (s.ft ≠ .skipped) && cfgLoopfilter s

/-- The filter stages `FRAME_END` runs on an open frame, overlap before loop (R322, R346). -/
def filterFrame (s : State) (f : Frame) : Frame :=
  let f1 := if overlapOn s then filterStage overlapPair s.recon f else f
  if loopOn s then filterStage loopPair s.recon f1 else f1

end Sys2Proof.Machine
end

