-- ==== Sys2Proof/Machine/FrameControl.lean ====
section
/-! DEFINITION. Frame control, configuration and picture size (48_frame_control.md). These are the
commands that execute even while `STATUS.ERR = 1` (60_exceptions.md R381). -/

namespace Sys2Proof.Machine

/-! ## Plain commands -/

/-- `NOP` (R353). -/
def execNop (s : State) : Host.Outcome State Fault Refusal := always (some fun s => .ok () s) s

/-- `WRCFG idx, val` (R350). -/
def execWrcfg (idx : BitVec 5) (val : BitVec 16) (s : State) : Host.Outcome State Fault Refusal :=
  always (some <| update fun s => { s with cfg := s.cfg.setIfInBounds idx.toNat val }) s

/-- `RDCFG idx` (R351). -/
def execRdcfg (idx : BitVec 5) (s : State) : Host.Outcome State Fault Refusal :=
  always (some <| update fun s => { s with res0 := n32 (s.cfg[idx.toNat]?.getD 0).toNat }) s

/-! ## Resets -/

/-- The DC sentinel of a codec (R47, R253). -/
def sentinelOf (p : Params) : Codec → Word
  | .vc1 => p.raw.dcSentinelVc1
  | .wmv2 => p.raw.dcSentinelWmv2

/-- Every predictor buffer at its default, with `sentinel` in `DCB`; the position, the quantizer
override and the escape-3 widths cleared (R341, R352). -/
def resetPredictors (sentinel : Word) (s : State) : State :=
  { s with
    dcb := Grid.fresh sentinel
    acrow := Grid.fresh 0
    accol := Grid.fresh 0
    mvbuf := Grid.fresh ⟨0, 0, true⟩
    cbpb := Grid.fresh false
    recon := Grid.fresh false
    esc3LL := 0
    esc3RL := 0
    mqValid := false
    mbx := 0
    mby := 0 }

/-- `ERR`, `ECODE`, `ERRCMD`, `ERRPOS`, `NOREF`, `SKIPB`, `IX8` cleared and `FSTATE` idle (R340, R352). -/
def clearStatus (s : State) : State :=
  { clearError s with fstate := .idle, noref := false, skipb := false, ix8 := false }

/-- The state part of `RESIZE` (R352). Every `DCB` entry takes the sentinel of `CFG.CODEC`, as R352's pseudocode
says; with `CODEC` WMV2 this is R352 against R47 (DESIGN CHOICE, log entry 7). -/
def resizeOf (mbw mbh : BitVec 12) (s : State) : State :=
  { clearStatus (resetPredictors (sentinelOf s.params (cfgCodec s)) s) with
    mbw := mbw
    mbh := mbh
    cur := none
    out := none
    ref := none
    fwd := none
    bwd := none
    w2ref := none
    wref0 := none
    wref1 := none
    prevRrf := false }

/-- `RESIZE mbw, mbh` (R352). -/
def execResize (mbw mbh : BitVec 12) (s : State) : Host.Outcome State Fault Refusal :=
  always (legalWhen (legalSize mbw mbh) <| update (resizeOf mbw mbh)) s

/-! ## Opening a frame -/

/-- The frame type a legal `FRAME_TYPE` value names in a codec (R33, R340). -/
def frameTypeOf : Codec → Nat → Option FrameType
  | .vc1, 0 => some .i
  | .vc1, 1 => some .p
  | .vc1, 2 => some .b
  | .vc1, 3 => some .bi
  | .vc1, 4 => some .skipped
  | .wmv2, 0 => some .i
  | .wmv2, 1 => some .p
  | _, _ => none

/-- Range-reduction adjustment of one sample (R344): `cur` is `RANGEREDFRM`, `prev` is `PREV_RRF`. -/
def adjSample (rangered cur prev : Bool) (x : Byte) : Byte :=
  let v : Int := x.toNat
  if rangered = false ∨ cur = prev then x
  else if cur then u8 (asr (v - 128) 1 + 128)
  else u8 (clamp ((v - 128) * 2 + 128) 0 255)

/-- `Adj(F)` (R344). -/
def adjFrame (s : State) (f : Frame) : Frame :=
  f.mapPix fun _ _ _ old => adjSample (cfgRangered s) (cfgRangeredfrm s) s.prevRrf old

/-- A default frame of the current picture size (R51, R341). -/
def freshFrame (s : State) : Frame := Frame.fresh s.mbw s.mbh

/-- The open or suppressed frame that `OpenByType` leaves (R341). -/
def openWith (fstate : FState) (cur wref0 wref1 : Option Frame) (s : State) : State :=
  { s with fstate := fstate, cur := cur, wref0 := wref0, wref1 := wref1 }

/-- A frame without its reference, held at its default fill (R341). -/
def openNoref (s : State) : State :=
  { openWith (.suppressed .noref) (some (freshFrame s)) none none s with noref := true }

/-- `OpenByType()`: the table of R341. A WMV2 frame is `I`, `P` or `Skipped` (R340). -/
def openByType (ix8 : Bool) (s : State) : State :=
  match s.fc, s.ft with
  | .vc1, .i => openWith .opened (some (freshFrame s)) none none s
  | .vc1, .bi => openWith .opened (some (freshFrame s)) none none s
  | .vc1, .p =>
    match s.ref with
    | some r => openWith .opened (some (adjFrame s r)) (some (adjFrame s r)) none s
    | none => openNoref s
  | .vc1, .skipped =>
    match s.ref with
    | some r => openWith .opened (some r) none none s
    | none => openNoref s
  | .vc1, .b =>
    match s.fwd, s.bwd with
    | some f, some b =>
      openWith .opened (some (freshFrame s)) (some (adjFrame s f)) (some (adjFrame s b)) s
    | _, _ => { openWith (.suppressed .skipb) none none none s with skipb := true }
  | .wmv2, .p =>
    match s.w2ref with
    | some r => openWith .opened (some r) (some r) none s
    | none => openNoref s
  | .wmv2, .skipped =>
    match s.w2ref with
    | some r => openWith .opened (some r) none none s
    | none => openNoref s
  | .wmv2, _ =>
    if ix8 then { openWith (.suppressed .ix8) none none none s with ix8 := true }
    else openWith .opened (some (freshFrame s)) none none s

/-- The frame type after the WMV2 skip flag (R340). -/
def effectiveType (s : State) (t : FrameType) : FrameType :=
  if cfgCodec s = .wmv2 ∧ cfgW2Skipped s = true then .skipped else t

/-- The configuration checks of `FRAME_BEGIN` pass for type `t` (R340). -/
def frameCfgOk (s : State) (t : FrameType) : Bool :=
  (decide (t = .skipped) || decide (cfgPquant s ≠ 0))
    && !(decide (cfgCodec s = .vc1) && decide (t = .b) && decide (cfgBfracDen s = 0))

/-- `FC <- fc; FT <- ft; ResetPictureState()` and then `OpenByType()` (R340, R341). -/
def openFrame (ix8 : Bool) (t : FrameType) (s : State) : State :=
  openByType ix8
    (resetPredictors (sentinelOf s.params (cfgCodec s)) { s with fc := cfgCodec s, ft := t })

/-- The checks of `FRAME_BEGIN` after the status is cleared, and the opening of the frame (R340). A failed check
leaves the slots as they were (DEDUCED, log entry 24). -/
def frameBeginChecked (ix8 : Bool) : Engine Unit := fun s =>
  if s.mbw = 0 then .error .seq s
  else
    match frameTypeOf (cfgCodec s) (cfgFrameType s) with
    | none => .error .badCfg s
    | some t =>
      if frameCfgOk s (effectiveType s t) then .ok () (openFrame ix8 (effectiveType s t) s)
      else .error .badCfg s

/-- The rule of `FRAME_BEGIN` (R340). -/
def frameBeginRule (ix8 : Bool) : Engine Unit := fun s =>
  if s.fstate.active then .error .seq s else frameBeginChecked ix8 (clearStatus s)

/-- `FRAME_BEGIN ix8` (R340). -/
def execFrameBegin (ix8 : Bool) (s : State) : Host.Outcome State Fault Refusal :=
  always (some (frameBeginRule ix8)) s

/-! ## Closing a frame -/

/-- `Rotate()` (R347). -/
def rotate (s : State) : State :=
  match s.fc, s.ft with
  | .vc1, .i => { s with fwd := s.bwd, bwd := s.cur, ref := s.cur, prevRrf := cfgRangeredfrm s }
  | .vc1, .p => { s with fwd := s.bwd, bwd := s.cur, ref := s.cur, prevRrf := cfgRangeredfrm s }
  | .vc1, .skipped => { s with fwd := s.bwd, bwd := s.cur, ref := s.cur }
  | .vc1, .b => s
  | .vc1, .bi => s
  | .wmv2, _ => { s with w2ref := s.cur }

/-- `OUT <- CUR; Rotate()` (R346). -/
def outputFrame (s : State) : State := rotate { s with out := s.cur }

/-- `CUR <- absent; WREF0 <- absent; WREF1 <- absent; FSTATE <- IDLE` (R346). -/
def closeFrame (s : State) : State :=
  { s with cur := none, wref0 := none, wref1 := none, fstate := .idle }

/-- The rule of `FRAME_END` (R346). -/
def frameEndRule : Engine Unit := fun s =>
  match s.fstate with
  | .idle => .error .seq s
  | .aborted => .ok () (closeFrame s)
  | .suppressed .skipb => .ok () (closeFrame s)
  | .suppressed .ix8 => .ok () (closeFrame s)
  | .suppressed .noref => .ok () (closeFrame (outputFrame s))
  | .opened => .ok () (closeFrame (outputFrame { s with cur := s.cur.map (filterFrame s) }))

/-- `FRAME_END` (R346). -/
def execFrameEnd (s : State) : Host.Outcome State Fault Refusal := always (some frameEndRule) s

end Sys2Proof.Machine
end

