-- ==== Sys2Proof/Machine/Idct.lean ====
section
/-! DEFINITION. The IDCT engine and the block writes (44_idct.md). -/

namespace Sys2Proof.Machine

/-! ## Transforms -/

/-- The VC-1 8-point matrix: row `k` is the basis function of frequency `k` (R220). -/
def T8 : List (List Int) :=
  [[12, 12, 12, 12, 12, 12, 12, 12],
   [16, 15, 9, 4, -4, -9, -15, -16],
   [16, 6, -6, -16, -16, -6, 6, 16],
   [15, -4, -16, -9, 9, 16, 4, -15],
   [12, -12, -12, 12, 12, -12, -12, 12],
   [9, -16, 4, 15, -15, -4, 16, -9],
   [6, -16, 16, -6, -6, 16, -16, 6],
   [4, -9, 15, -16, 16, -15, 9, -4]]

/-- The VC-1 4-point matrix (R220). -/
def T4 : List (List Int) :=
  [[17, 17, 17, 17],
   [22, 10, -10, -22],
   [17, -17, -17, 17],
   [10, -22, 22, -10]]

/-- The matrix of a given size, 8 or 4 (R222). -/
def basis (size : Nat) : List (List Int) := if size = 8 then T8 else T4

/-- `T[k][n]` of the matrix of a given size. -/
def tap (size k n : Nat) : Int := ((basis size).getD k []).getD n 0

/-- `P_IDCT_ROW_SHIFT` (R9: 0, from the source). -/
def idctRowShift : Nat := 0

/-- `P_IDCT_COL_LOWER_PLUS1` (R9: false). -/
def idctColLowerPlus1 : Bool := false

/-- The rounding constant `rr` of the row pass (R222). -/
def idctRowRound : Int := if 0 < idctRowShift then 2 ^ (idctRowShift - 1) else 0

/-- `E[r][n]` of the row pass over the region at `(r0, c0)` of width `wd`, a 32-bit intermediate (R11,
R222; DEDUCED, log entry 11). -/
def rowPass (c : Vector Word 64) (r0 c0 wd r n : Nat) : Int :=
  BitVec.toInt (i32 (asr (sumTo wd (fun k => tap wd k n * coefAt c (8 * (r0 + r) + c0 + k))
    + idctRowRound) idctRowShift))

/-- The value the column pass stores at row `m`, column `n` of the region (R222). -/
def colPass (c : Vector Word 64) (r0 c0 wd ht m n : Nat) : Int :=
  let p : Int := if idctColLowerPlus1 = true ∧ ht = 8 ∧ 4 ≤ m then 1 else 0
  asr (sumTo ht (fun k => tap ht k m * rowPass c r0 c0 wd k n) + 64 + p) 7

/-- `Xform(r0, c0, Wd, Ht)`: the region is transformed, the rest of `COEF` stays (R222). -/
def xform (r0 c0 wd ht : Nat) (c : Vector Word 64) : Vector Word 64 :=
  buildCoef fun i =>
    if r0 ≤ i / 8 ∧ i / 8 < r0 + ht ∧ c0 ≤ i % 8 ∧ i % 8 < c0 + wd
    then colPass c r0 c0 wd ht (i / 8 - r0) (i % 8 - c0)
    else coefAt c i

/-- One 8×8 region (R223, R224). -/
def idct8x8Of (c : Vector Word 64) : Vector Word 64 := xform 0 0 8 8 c

/-- Two 8-wide, 4-tall regions (R223, R225). -/
def idct8x4Of (c : Vector Word 64) : Vector Word 64 := xform 4 0 8 4 (xform 0 0 8 4 c)

/-- Two 4-wide, 8-tall regions (R223, R226). -/
def idct4x8Of (c : Vector Word 64) : Vector Word 64 := xform 0 4 4 8 (xform 0 0 4 8 c)

/-- Four 4×4 regions (R223, R227). -/
def idct4x4Of (c : Vector Word 64) : Vector Word 64 :=
  xform 4 4 4 4 (xform 4 0 4 4 (xform 0 4 4 4 (xform 0 0 4 4 c)))

/-- A command that transforms `COEF` in place. -/
def transform (f : Vector Word 64 → Vector Word 64) (s : State) : Host.Outcome State Fault Refusal :=
  command (some <| update fun s => { s with coef := f s.coef }) s

/-- `IDCT8X8` (R224). -/
def execIdct8x8 (s : State) : Host.Outcome State Fault Refusal := transform idct8x8Of s

/-- `IDCT8X4_A` (R225). -/
def execIdct8x4A (s : State) : Host.Outcome State Fault Refusal := transform idct8x4Of s

/-- `IDCT8X4_B` (R225). -/
def execIdct8x4B (s : State) : Host.Outcome State Fault Refusal := transform idct8x4Of s

/-- `IDCT4X8_A` (R226). -/
def execIdct4x8A (s : State) : Host.Outcome State Fault Refusal := transform idct4x8Of s

/-- `IDCT4X8_B` (R226). -/
def execIdct4x8B (s : State) : Host.Outcome State Fault Refusal := transform idct4x8Of s

/-- `IDCT4X4_A` (R227). -/
def execIdct4x4A (s : State) : Host.Outcome State Fault Refusal := transform idct4x4Of s

/-- `IDCT4X4_B` (R227). -/
def execIdct4x4B (s : State) : Host.Outcome State Fault Refusal := transform idct4x4Of s

/-- The opaque WMV2 transform of a shape, its results stored in 32 bits (R11, R12, R228). -/
def wmv2Transform (shape : WmvShape) (c : Vector Word 64) : Vector Word 64 :=
  (Config.wmv2Idct shape (c.map BitVec.toInt)).map i32

/-- `WIDCT8X8` (R228). -/
def execWidct8x8 (s : State) : Host.Outcome State Fault Refusal := transform (wmv2Transform .s8x8) s

/-- `WIDCT8X4` (R228). -/
def execWidct8x4 (s : State) : Host.Outcome State Fault Refusal := transform (wmv2Transform .s8x4) s

/-- `WIDCT4X8` (R228). -/
def execWidct4x8 (s : State) : Host.Outcome State Fault Refusal := transform (wmv2Transform .s4x8) s

/-! ## Writing blocks into the frame -/

/-- Sample `(x, y)` of plane `p` lies in block `b` of macroblock `(mx, my)` (R229, R251). -/
def inBlock (mx my b : Nat) (p : PlaneId) (x y : Nat) : Bool :=
  decide (p = blockPlane b) && decide (blockX mx b ≤ x) && decide (x < blockX mx b + 8)
    && decide (blockY my b ≤ y) && decide (y < blockY my b + 8)

/-- `CUR` with the samples of block `b` of the current macroblock replaced by `g` of the sample's
coefficient index `8*r + c` and old value. -/
def putBlock (s : State) (b : Nat) (f : Frame) (g : Nat → Byte → Byte) : Frame :=
  let mx := s.mbx.toNat
  let my := s.mby.toNat
  f.mapPix fun p x y old =>
    if inBlock mx my b p x y then g (8 * (y - blockY my b) + (x - blockX mx b)) old else old

/-- The bias of `BLK_PUT` (R230). -/
def putBias (s : State) : Int :=
  match s.fc with
  | .vc1 => s.params.raw.putBiasVc1
  | .wmv2 => s.params.raw.putBiasWmv2

/-- A sample of `BLK_PUT` (R230). -/
def putSample (s : State) (i : Nat) (_old : Byte) : Byte :=
  u8 (clamp (coefAt s.coef i + putBias s) 0 255)

/-- A sample of `BLK_ADD` (R231). -/
def addSample (s : State) (i : Nat) (old : Byte) : Byte :=
  u8 (clamp ((old.toNat : Int) + coefAt s.coef i) 0 255)

/-- `BLK_PUT b` (R230). -/
def execBlkPut (b : BitVec 3) (s : State) : Host.Outcome State Fault Refusal :=
  command (legalWhen (legalBlock b) <| pixelCommand fun f => update fun s =>
    { s with cur := some (putBlock s b.toNat f (putSample s)), recon := markRecon s }) s

/-- `BLK_ADD b` (R231). -/
def execBlkAdd (b : BitVec 3) (s : State) : Host.Outcome State Fault Refusal :=
  command (legalWhen (legalBlock b) <| pixelCommand fun f => update fun s =>
    { s with cur := some (putBlock s b.toNat f (addSample s)), recon := markRecon s }) s

end Sys2Proof.Machine
end

