-- ==== Sys2Proof/Machine/MotionComp.lean ====
section
/-! DEFINITION. The motion-compensation unit (46_motion_comp.md). -/

namespace Sys2Proof.Machine

/-! ## Reference reads -/

/-- `RefPix(F, p, x, y)`: each coordinate clamped to the plane (R290). -/
def refPix (f : Frame) (p : PlaneId) (x y : Int) : Int :=
  (f.pix p (clamp x 0 ((f.width p : Int) - 1)).toNat
    (clamp y 0 ((f.height p : Int) - 1)).toNat).toNat

/-- `Bil(F, p, x, y, fx, fy)` (R292). -/
def bil (f : Frame) (p : PlaneId) (x y fx fy : Int) : Int :=
  let at' := refPix f p
  if fy = 0 then
    if fx = 0 then at' x y else asr (at' x y + at' (x + 1) y + 1) 1
  else
    if fx = 0 then asr (at' x y + at' x (y + 1) + 1) 1
    else asr (at' x y + at' (x + 1) y + at' x (y + 1) + at' (x + 1) (y + 1) + 2) 2

/-- `ChromaMv(v)` (R294). -/
def chromaMv (s : State) (v : Int) : Int :=
  let c0 := Int.tdiv v 2
  if s.fc = .vc1 ∧ cfgFastuvmc s = true ∧ lowBit c0 = 1 then c0 - c0.sign else c0

/-- The vector that plane `p` uses for a luma vector component (R293, R294). -/
def planeMv (s : State) (p : PlaneId) (v : Int) : Int :=
  match p with
  | .y => v
  | .cb => chromaMv s v
  | .cr => chromaMv s v

/-- The bilinear prediction of the current macroblock from `f` with vector `mv` (R293). -/
def bilinBuf (s : State) (f : Frame) (mv : Mv) : McBuf :=
  McBuf.build fun p r c =>
    let vx := planeMv s p mv.x.toInt
    let vy := planeMv s p mv.y.toInt
    u8 (bil f p (p.unit * s.mbx.toNat + c + asr vx 1) (p.unit * s.mby.toNat + r + asr vy 1)
      (lowBit vx) (lowBit vy))

/-- The rule of `MC_BILIN` in an open frame (R293): `MCBUF[k]` from the working reference and the vector
of R291. -/
def mcBilinRule (k : Bool) : Engine Unit := fun s =>
  match k, s.wref0, s.wref1 with
  | false, some f, _ => .ok () { s with mcbuf0 := bilinBuf s f s.mvf }
  | false, none, _ => .error .seq s
  | true, _, some f => .ok () { s with mcbuf1 := bilinBuf s f s.mvbk }
  | true, _, none => .error .seq s

/-- `MC_BILIN k` (R293). -/
def execMcBilin (k : Bool) (s : State) : Host.Outcome State Fault Refusal :=
  command (some <| pixelCommand fun _ => mcBilinRule k) s

/-! ## WMV2 mspel luma -/

/-- The lowpass taps, rounding constant and shift of `P_MSPEL` (R9). -/
def mspelTap : Nat → Int
  | 0 => -1
  | 1 => 9
  | 2 => 9
  | _ => -1

/-- The rounding constant of `P_MSPEL` (R9). -/
def mspelRound : Int := 8

/-- The shift of `P_MSPEL` (R9). -/
def mspelShift : Nat := 4

/-- `LP(a, b, c, d)` (R295). -/
def lowpass (a b c d : Int) : Int :=
  clamp (asr (mspelTap 0 * a + mspelTap 1 * b + mspelTap 2 * c + mspelTap 3 * d + mspelRound)
    mspelShift) 0 255

/-- `Hh(u, v)` (R295). -/
def mspelH (f : Frame) (u v : Int) : Int :=
  lowpass (refPix f .y (u - 1) v) (refPix f .y u v) (refPix f .y (u + 1) v) (refPix f .y (u + 2) v)

/-- `Vv(u, v)` (R295). -/
def mspelV (f : Frame) (u v : Int) : Int :=
  lowpass (refPix f .y u (v - 1)) (refPix f .y u v) (refPix f .y u (v + 1)) (refPix f .y u (v + 2))

/-- `HV(u, v)` (R295). -/
def mspelHV (f : Frame) (u v : Int) : Int :=
  lowpass (mspelH f u (v - 1)) (mspelH f u v) (mspelH f u (v + 1)) (mspelH f u (v + 2))

/-- `no_rnd_avg` (R295). -/
def noRndAvg (a b : Int) : Int := asr (a + b) 1

/-- The sample at `(u, v)` for a value of `dxy` (R295). -/
def mspelSample (f : Frame) (dxy : Nat) (u v : Int) : Int :=
  match dxy with
  | 0 => refPix f .y u v
  | 1 => noRndAvg (refPix f .y u v) (mspelH f u v)
  | 2 => mspelH f u v
  | 3 => noRndAvg (refPix f .y (u + 1) v) (mspelH f u v)
  | 4 => mspelV f u v
  | 5 => noRndAvg (mspelV f u v) (mspelHV f u v)
  | 6 => mspelHV f u v
  | _ => noRndAvg (mspelV f (u + 1) v) (mspelHV f u v)

/-- `dxy` (R295). -/
def mspelDxy (mv : Mv) (hshift : Bool) : Nat :=
  4 * (lowBit mv.y.toInt).toNat + 2 * (lowBit mv.x.toInt).toNat + bit01 hshift

/-- `MCBUF[0].Y` after `MC_MSPEL hshift` (R295). -/
def mspelLuma (s : State) (f : Frame) (hshift : Bool) : Vector Byte 256 :=
  Vector.ofFn fun i : Fin 256 =>
    u8 (mspelSample f (mspelDxy s.mvf hshift)
      (16 * s.mbx.toNat + asr s.mvf.x.toInt 1 + (i.val % 16 : Nat))
      (16 * s.mby.toNat + asr s.mvf.y.toInt 1 + (i.val / 16 : Nat)))

/-- The rule of `MC_MSPEL` in an open frame (R295). -/
def mcMspelRule (hshift : Bool) : Engine Unit := fun s =>
  match s.wref0 with
  | some f => .ok () { s with mcbuf0 := { s.mcbuf0 with y := mspelLuma s f hshift } }
  | none => .error .seq s

/-- `MC_MSPEL hshift` (R295). -/
def execMcMspel (hshift : Bool) (s : State) : Host.Outcome State Fault Refusal :=
  command (some <| pixelCommand fun _ => mcMspelRule hshift) s

/-! ## B-frame vectors and the final prediction -/

/-- `trunc(v * BFRAC_NUM / BFRAC_DEN)` (R296). -/
def bScale (s : State) (v : Word) : Word :=
  i32 (Int.tdiv (v.toInt * cfgBfracNum s) (cfgBfracDen s))

/-- The vectors and results of `MV_BDIRECT` (R296). -/
def bdirectOf (s : State) : State :=
  let fx := bScale s s.pmv.x
  let fy := bScale s s.pmv.y
  { s with
    mvf := ⟨fx, fy⟩
    mvbk := ⟨i32 (fx.toInt - s.pmv.x.toInt), i32 (fy.toInt - s.pmv.y.toInt)⟩
    res0 := fx
    res1 := fy }

/-- The rule of `MV_BDIRECT` (R296). -/
def mvBdirectRule : Engine Unit := fun s =>
  if cfgBfracDen s = 0 then .error .badCfg s else .ok () (bdirectOf s)

/-- `MV_BDIRECT` (R296). It needs no picture size (DESIGN CHOICE, log entry 8). -/
def execMvBdirect (s : State) : Host.Outcome State Fault Refusal := command (some mvBdirectRule) s

/-- The committed sample at row `r`, column `c` of the macroblock (R297). -/
def commitSample (s : State) (avg : Bool) (p : PlaneId) (r c : Nat) : Byte :=
  if avg then
    u8 (asr (((s.mcbuf0.sample p r c).toNat : Int) + ((s.mcbuf1.sample p r c).toNat : Int) + 1) 1)
  else s.mcbuf0.sample p r c

/-- Sample `(x, y)` of plane `p` lies in macroblock `(mx, my)` (R297, R320). -/
def inMb (mx my : Nat) (p : PlaneId) (x y : Nat) : Bool :=
  decide (x / p.unit = mx) && decide (y / p.unit = my)

/-- `CUR` after `MC_COMMIT avg` (R297). -/
def commitFrame (s : State) (avg : Bool) (f : Frame) : Frame :=
  f.mapPix fun p x y old =>
    if inMb s.mbx.toNat s.mby.toNat p x y then commitSample s avg p (y % p.unit) (x % p.unit)
    else old

/-- `MC_COMMIT avg` (R297). -/
def execMcCommit (avg : Bool) (s : State) : Host.Outcome State Fault Refusal :=
  command (some <| pixelCommand fun f => update fun s =>
    { s with cur := some (commitFrame s avg f), recon := markRecon s }) s

end Sys2Proof.Machine
end

