-- ==== Sys2Proof/Machine/Dequant.lean ====
section
/-! DEFINITION. The inverse quantizer (43_dequant.md). -/

namespace Sys2Proof.Machine

/-- `SET_MQUANT mq` (R200). -/
def execSetMquant (mq : BitVec 5) (s : State) : Host.Outcome State Fault Refusal :=
  command (legalWhen (legalQuant mq) <| update fun s => { s with mquant := mq, mqValid := true }) s

/-- The per-macroblock override is in effect (R201). -/
def overrideOn (s : State) : Bool := decide (cfgDquant s ≠ 0) && s.mqValid

/-- `QEff()` (R201). -/
def qEff (s : State) : Nat := if overrideOn s then s.mquant.toNat else cfgPquant s

/-- `HQEff()` (R201). -/
def hqEff (s : State) : Bool := if overrideOn s then false else cfgHalfqp s

/-- `DqAcVc1(l, q, hq)` (R202). -/
def dqAcVc1 (s : State) (l : Int) (q : Nat) (hq : Bool) : Int :=
  let v :=
    if cfgQmode s = false then l.sign * (2 * q * l.natAbs + q + (if hq then (q : Int) else 0))
    else l.sign * (stepAt s.params.raw.nuStep q * l.natAbs + q)
  clamp v (-2048) 2047

/-- `COEF` after `DQ_VC1 b, intra` (R203). -/
def dqVc1Coef (s : State) (intra : Bool) : Vector Word 64 :=
  buildCoef fun i =>
    if intra ∧ i = 0 then coefAt s.coef 0 * stepAt s.params.raw.vc1DcStep (qEff s)
    else dqAcVc1 s (coefAt s.coef i) (qEff s) (hqEff s)

/-- `DQ_VC1 b, intra` (R203). -/
def execDqVc1 (b : BitVec 3) (intra : Bool) (s : State) : Host.Outcome State Fault Refusal :=
  command (legalWhen (legalBlock b) <| update fun s => { s with coef := dqVc1Coef s intra }) s

/-- The WMV2 quantizer step's addend `(q - 1) | 1` (R204): `q - 1` made odd. For `q = 0`, `-1 | 1` is
`-1` in two's complement. -/
def wmv2Qadd (q : Nat) : Int := if q % 2 = 0 then (q : Int) - 1 else q

/-- `DqWmv2(l, q)` (R204). -/
def dqWmv2 (l : Int) (q : Nat) : Int := if l = 0 then 0 else l * (2 * q) + l.sign * wmv2Qadd q

/-- The WMV2 DC scale of block `b` at quantizer `q` (R205, R253). -/
def wmv2Scale (s : State) (b q : Nat) : Int :=
  if b < 4 then stepAt s.params.raw.wmv2DcScaleY q else stepAt s.params.raw.wmv2DcScaleC q

/-- `COEF` after `DQ_WMV2 b, intra` (R205). -/
def dqWmv2Coef (s : State) (b : Nat) (intra : Bool) : Vector Word 64 :=
  buildCoef fun i =>
    if intra ∧ i = 0 then coefAt s.coef 0 * wmv2Scale s b (cfgPquant s)
    else dqWmv2 (coefAt s.coef i) (cfgPquant s)

/-- `DQ_WMV2 b, intra` (R205). -/
def execDqWmv2 (b : BitVec 3) (intra : Bool) (s : State) : Host.Outcome State Fault Refusal :=
  command (legalWhen (legalBlock b) <| update fun s =>
    { s with coef := dqWmv2Coef s b.toNat intra }) s

end Sys2Proof.Machine
end

