-- ==== Sys2Proof/Machine/Prediction.lean ====
section
/-! DEFINITION. The DC/AC, coded-block-pattern and motion-vector predictors (45_prediction.md). -/

namespace Sys2Proof.Machine

/-! ## Position -/

/-- `SET_MB`'s coordinates are legal when they lie in the picture (R103, R250). -/
def legalMb (s : State) (mbx mby : BitVec 12) : Bool :=
  decide (mbx.toNat < s.mbw.toNat) && decide (mby.toNat < s.mbh.toNat)

/-- `SET_MB mbx, mby` (R250). -/
def execSetMb (mbx mby : BitVec 12) (s : State) : Host.Outcome State Fault Refusal :=
  command (legalWhen (legalMb s mbx mby) <| update fun s =>
    { s with mbx := mbx, mby := mby, mqValid := false }) s

/-! ## DC prediction -/

/-- `DcN(n)`: a neighbour's DC in the level domain, the sentinel standing for one outside (R253). -/
def dcN (s : State) (sentinel : Word) (step : Int) (n : Option Slot) : Int :=
  let v : Word := match n with
    | some slot => s.dcb.read slot.key
    | none => sentinel
  rdiv v.toInt step

/-- The choice of a DC predictor: the predicted level and `PDIR` (R254, R255). -/
structure DcChoice where
  pred : Int
  fromLeft : Bool
deriving DecidableEq, Repr

/-- VC-1: predict from the top when `|T - C| <= |L - C|` (R254). -/
def dcChoiceVc1 (l t c : Int) : DcChoice :=
  if (t - c).natAbs ≤ (l - c).natAbs then ⟨t, false⟩ else ⟨l, true⟩

/-- WMV2: predict from the top when `|A - B| < |B - C|`, `A` left, `B` top-left, `C` top (R255). -/
def dcChoiceWmv2 (a b c : Int) : DcChoice :=
  if (a - b).natAbs < (b - c).natAbs then ⟨c, false⟩ else ⟨a, true⟩

/-- The VC-1 choice for block `b` in a state (R253, R254). -/
def dcPredVc1 (s : State) (b : Nat) : DcChoice :=
  let n := dcN s s.params.raw.dcSentinelVc1 (stepAt s.params.raw.vc1DcStep (qEff s))
  dcChoiceVc1 (n (leftOf s b)) (n (topOf s b)) (n (topLeftOf s b))

/-- The WMV2 choice for block `b` in a state (R253, R255). -/
def dcPredWmv2 (s : State) (b : Nat) : DcChoice :=
  let n := dcN s s.params.raw.dcSentinelWmv2 (wmv2Scale s b (cfgPquant s))
  dcChoiceWmv2 (n (leftOf s b)) (n (topLeftOf s b)) (n (topOf s b))

/-- What a DC prediction writes (R254, R255). -/
def applyDc (d : DcChoice) (s : State) : State :=
  { s with
    pdir := d.fromLeft
    coef := setCoef s.coef 0 (d.pred + s.dcdiff.toInt)
    res0 := i32 d.pred }

/-- `DCPRED_VC1 b` (R254). -/
def execDcpredVc1 (b : BitVec 3) (s : State) : Host.Outcome State Fault Refusal :=
  command (legalWhen (legalBlock b) do
    needPicture
    update fun s => applyDc (dcPredVc1 s b.toNat) s) s

/-- `DCPRED_WMV2 b` (R255). -/
def execDcpredWmv2 (b : BitVec 3) (s : State) : Host.Outcome State Fault Refusal :=
  command (legalWhen (legalBlock b) do
    needPicture
    update fun s => applyDc (dcPredWmv2 s b.toNat) s) s

/-! ## Storing and AC prediction -/

/-- Writes elements `0..n-1` of block `b`'s cache at macroblock `(mx, my)`, element `i` from `f i`. -/
def storeCache (g : Grid Word) (mx my b : Nat) (f : Nat → Word) : Nat → Grid Word
  | 0 => g
  | n + 1 => (storeCache g mx my b f n).write (cacheKey mx my b n) (f n)

/-- `PRED_STORE b` (R256). -/
def predStoreOf (b : Nat) (s : State) : State :=
  let mx := s.mbx.toNat
  let my := s.mby.toNat
  { s with
    dcb := s.dcb.write (blockKey mx my b) (i32 (coefAt s.coef 0))
    acrow := storeCache s.acrow mx my b (fun i => i32 (coefAt s.coef (1 + i))) 7
    accol := storeCache s.accol mx my b (fun i => i32 (coefAt s.coef (8 * (1 + i)))) 7 }

/-- `PRED_STORE b` (R256). -/
def execPredStore (b : BitVec 3) (s : State) : Host.Outcome State Fault Refusal :=
  command (legalWhen (legalBlock b) do
    needPicture
    update (predStoreOf b.toNat)) s

/-- Element `i` of a neighbour's AC cache, 0 for a neighbour outside (R257). -/
def cacheAt (g : Grid Word) (n : Option Slot) (i : Nat) : Int :=
  match n with
  | some slot => (g.read (cacheKey slot.mx slot.my slot.b i)).toInt
  | none => 0

/-- `COEF` after `ACPRED b` (R257): the left neighbour's cached row is added to coefficients 1..7, or
the top neighbour's cached column to coefficients 8, 16, ..., 56. -/
def acPredCoef (s : State) (b : Nat) : Vector Word 64 :=
  buildCoef fun i =>
    if s.pdir = true ∧ 1 ≤ i ∧ i ≤ 7 then coefAt s.coef i + cacheAt s.acrow (leftOf s b) (i - 1)
    else if s.pdir = false ∧ i % 8 = 0 ∧ 8 ≤ i then
      coefAt s.coef i + cacheAt s.accol (topOf s b) (i / 8 - 1)
    else coefAt s.coef i

/-- `ACPRED b` (R257). -/
def execAcpred (b : BitVec 3) (s : State) : Host.Outcome State Fault Refusal :=
  command (legalWhen (legalBlock b) do
    needPicture
    update fun s => { s with coef := acPredCoef s b.toNat }) s

/-! ## Coded-block-pattern prediction -/

/-- `Bit(x, y)` (R258). -/
def cbpBit (s : State) (x y : Int) : Bool :=
  if x < 0 ∨ y < 0 then false else s.cbpb.read (gridKey x.toNat y.toNat)

/-- The predicted coded bit of luma block `b` (R258). -/
def cbpPredicted (s : State) (b : Nat) : Bool :=
  let bx : Int := gridX s.mbx.toNat b
  let yb : Int := gridY s.mby.toNat b
  let a := cbpBit s (bx - 1) yb
  let bb := cbpBit s (bx - 1) (yb - 1)
  let c := cbpBit s bx (yb - 1)
  if bb = c then a else c

/-- `CBPPRED b, raw` (R258). -/
def execCbppred (b : BitVec 2) (raw : Bool) (s : State) : Host.Outcome State Fault Refusal :=
  command (some do
    needPicture
    update fun s =>
      let coded := xor raw (cbpPredicted s b.toNat)
      { s with
        cbpb := s.cbpb.write (gridKey (gridX s.mbx.toNat b.toNat) (gridY s.mby.toNat b.toNat)) coded
        res0 := n32 (bit01 coded) }) s

/-! ## Motion-vector prediction -/

/-- `MvN(x, y)` (R259). -/
def mvN (s : State) (x y : Int) : Mv :=
  if x < 0 ∨ y < 0 ∨ (s.mbw.toNat : Int) ≤ x then ⟨0, 0⟩
  else
    let c := s.mvbuf.read (mbKey x.toNat y.toNat)
    if c.skipped then ⟨0, 0⟩ else ⟨c.x, c.y⟩

/-- The predicted motion vector of the current macroblock (R260). -/
def predictedMv (s : State) : Mv :=
  let x : Int := s.mbx.toNat
  let y : Int := s.mby.toNat
  let a := mvN s (x - 1) y
  let b := mvN s x (y - 1)
  let c := if x = (s.mbw.toNat : Int) - 1 then mvN s (x - 1) (y - 1) else mvN s (x + 1) (y - 1)
  ⟨i32 (median3 a.x.toInt b.x.toInt c.x.toInt), i32 (median3 a.y.toInt b.y.toInt c.y.toInt)⟩

/-- `MVPRED` (R260). -/
def execMvpred (s : State) : Host.Outcome State Fault Refusal :=
  command (some do
    needPicture
    update fun s =>
      let mv := predictedMv s
      { s with pmv := mv, res0 := mv.x, res1 := mv.y }) s

/-- The vector `SET_MV` loads (R261). -/
def setMvOf (s : State) (addp : Bool) (x y : BitVec 11) : Mv :=
  let d : Mv := if addp then s.pmv else ⟨0, 0⟩
  ⟨i32 (d.x.toInt + x.toInt), i32 (d.y.toInt + y.toInt)⟩

/-- `SET_MV sel, addp, x, y` (R261). -/
def execSetMv (sel addp : Bool) (x y : BitVec 11) (s : State) : Host.Outcome State Fault Refusal :=
  command (some <| update fun s =>
    if sel then { s with mvbk := setMvOf s addp x y } else { s with mvf := setMvOf s addp x y }) s

/-- `MVSTORE skipped` (R262). -/
def execMvstore (skipped : Bool) (s : State) : Host.Outcome State Fault Refusal :=
  command (some do
    needPicture
    update fun s =>
      { s with mvbuf := s.mvbuf.write (mbKey s.mbx.toNat s.mby.toNat) ⟨s.mvf.x, s.mvf.y, skipped⟩ }) s

end Sys2Proof.Machine
end

