-- ==== Sys2Proof/Machine/Dispatch.lean ====
section
/-! DEFINITION. The meaning of every command: one arm per constructor of Instr. -/

namespace Sys2Proof.Machine

def exec (i : Instr) (s : State) : Host.Outcome State Fault Refusal :=
  match i with
  | .nop => Sys2Proof.Machine.execNop s
  | .resize mbw mbh => Sys2Proof.Machine.execResize mbw mbh s
  | .wrcfg idx val => Sys2Proof.Machine.execWrcfg idx val s
  | .rdcfg idx => Sys2Proof.Machine.execRdcfg idx s
  | .frameBegin ix8 => Sys2Proof.Machine.execFrameBegin ix8 s
  | .frameEnd => Sys2Proof.Machine.execFrameEnd s
  | .setMb mbx mby => Sys2Proof.Machine.execSetMb mbx mby s
  | .setMquant mq => Sys2Proof.Machine.execSetMquant mq s
  | .brInit off => Sys2Proof.Machine.execBrInit off s
  | .brReadBit => Sys2Proof.Machine.execBrReadBit s
  | .brReadBits n => Sys2Proof.Machine.execBrReadBits n s
  | .brReadSigned n => Sys2Proof.Machine.execBrReadSigned n s
  | .brPeek n => Sys2Proof.Machine.execBrPeek n s
  | .brSkip n => Sys2Proof.Machine.execBrSkip n s
  | .brBitsLeft => Sys2Proof.Machine.execBrBitsLeft s
  | .brIsEmpty => Sys2Proof.Machine.execBrIsEmpty s
  | .brNeed n => Sys2Proof.Machine.execBrNeed n s
  | .vlcDecode t => Sys2Proof.Machine.execVlcDecode t s
  | .vlcMaxlevel t last run => Sys2Proof.Machine.execVlcMaxlevel t last run s
  | .vlcMaxrun t last level => Sys2Proof.Machine.execVlcMaxrun t last level s
  | .dcVc1 t => Sys2Proof.Machine.execDcVc1 t s
  | .dcWmv2 t => Sys2Proof.Machine.execDcWmv2 t s
  | .clrCoef => Sys2Proof.Machine.execClrCoef s
  | .acSymVc1 t => Sys2Proof.Machine.execAcSymVc1 t s
  | .acBlockVc1 t sc intra => Sys2Proof.Machine.execAcBlockVc1 t sc intra s
  | .acSymWmv2 t => Sys2Proof.Machine.execAcSymWmv2 t s
  | .acBlockWmv2 t sc intra => Sys2Proof.Machine.execAcBlockWmv2 t sc intra s
  | .coefWr idx v => Sys2Proof.Machine.execCoefWr idx v s
  | .dqVc1 b intra => Sys2Proof.Machine.execDqVc1 b intra s
  | .dqWmv2 b intra => Sys2Proof.Machine.execDqWmv2 b intra s
  | .idct8x8 => Sys2Proof.Machine.execIdct8x8 s
  | .idct8x4A => Sys2Proof.Machine.execIdct8x4A s
  | .idct8x4B => Sys2Proof.Machine.execIdct8x4B s
  | .idct4x8A => Sys2Proof.Machine.execIdct4x8A s
  | .idct4x8B => Sys2Proof.Machine.execIdct4x8B s
  | .idct4x4A => Sys2Proof.Machine.execIdct4x4A s
  | .idct4x4B => Sys2Proof.Machine.execIdct4x4B s
  | .widct8x8 => Sys2Proof.Machine.execWidct8x8 s
  | .widct8x4 => Sys2Proof.Machine.execWidct8x4 s
  | .widct4x8 => Sys2Proof.Machine.execWidct4x8 s
  | .blkPut b => Sys2Proof.Machine.execBlkPut b s
  | .blkAdd b => Sys2Proof.Machine.execBlkAdd b s
  | .dcpredVc1 b => Sys2Proof.Machine.execDcpredVc1 b s
  | .dcpredWmv2 b => Sys2Proof.Machine.execDcpredWmv2 b s
  | .predStore b => Sys2Proof.Machine.execPredStore b s
  | .acpred b => Sys2Proof.Machine.execAcpred b s
  | .cbppred b raw => Sys2Proof.Machine.execCbppred b raw s
  | .mvpred => Sys2Proof.Machine.execMvpred s
  | .setMv sel addp x y => Sys2Proof.Machine.execSetMv sel addp x y s
  | .mvstore skipped => Sys2Proof.Machine.execMvstore skipped s
  | .mvBdirect => Sys2Proof.Machine.execMvBdirect s
  | .mcBilin k => Sys2Proof.Machine.execMcBilin k s
  | .mcMspel hshift => Sys2Proof.Machine.execMcMspel hshift s
  | .mcCommit avg => Sys2Proof.Machine.execMcCommit avg s

end Sys2Proof.Machine
end

