-- ==== Sys2Proof/Decode.lean ====
section
/-! DEFINITION. The command decoder of 30_encoding.md (R100 to R104) and the encoder beside it. The
decoder reads the opcode `cmd[31:24]` and the operand fields of `cmd[23:0]`, and rejects by name an
opcode outside R103, a set reserved bit, and a selector value no row of R103 has. Whether a field's value is
legal is checked where the command runs (DESIGN CHOICE, log entry 21). -/

namespace Sys2Proof

/-- Why a command word is no command of R103. -/
inductive Reject where
  /-- The opcode is none of R103's. -/
  | unknownOpcode (op : Nat)
  /-- A bit of `cmd[23:0]` that R103 assigns to no field is 1 (R102). -/
  | reservedBits (op : Nat) (args : BitVec 24)
  /-- The transform selector is `tt` = 7 or `shape` = 3 (R103, R227, R228). -/
  | illegalSelector (op : Nat) (v : Nat)
deriving DecidableEq, Repr

/-- The opcode byte `cmd[31:24]` (R100). -/
def opcodeOf (w : Word) : BitVec 8 := w.extractLsb' 24 8

/-- The operand bits `cmd[23:0]` (R100). -/
def argsOf (w : Word) : BitVec 24 := w.extractLsb' 0 24

/-- The unsigned field of width `n` whose lowest bit is `lo` (R101). -/
def field (a : BitVec 24) (lo n : Nat) : BitVec n := a.extractLsb' lo n

/-- The one-bit flag at bit `i` (R101). -/
def flag (a : BitVec 24) (i : Nat) : Bool := a.getLsbD i

/-- Accepts `i` when the `n` operand bits from `lo` up are all 0 (R102: reserved bits must be 0). -/
def reserved0 (op : Nat) (a : BitVec 24) (lo n : Nat) (i : Except Reject Instr) : Except Reject Instr :=
  if a.extractLsb' lo n = 0 then i else .error (.reservedBits op a)

/-- Opcode 0x40: the transform-type selector `tt` (R103, R104). -/
def decodeIdct (tt : Nat) : Except Reject Instr :=
  match tt with
  | 0 => .ok .idct8x8
  | 1 => .ok .idct8x4A
  | 2 => .ok .idct8x4B
  | 3 => .ok .idct4x8A
  | 4 => .ok .idct4x8B
  | 5 => .ok .idct4x4A
  | 6 => .ok .idct4x4B
  | n => .error (.illegalSelector 0x40 n)

/-- Opcode 0x41: the WMV2 transform's `shape` (R103, R228). -/
def decodeWidct (shape : Nat) : Except Reject Instr :=
  match shape with
  | 0 => .ok .widct8x8
  | 1 => .ok .widct8x4
  | 2 => .ok .widct4x8
  | n => .error (.illegalSelector 0x41 n)

/-- The opcode map of R103: the command of opcode `op` with operand bits `a`. -/
def decodeArgs (op : Nat) (a : BitVec 24) : Except Reject Instr :=
  match op with
  | 0x00 => reserved0 op a 0 24 (.ok .nop)
  | 0x01 => .ok (.resize (field a 12 12) (field a 0 12))
  | 0x02 => reserved0 op a 21 3 (.ok (.wrcfg (field a 16 5) (field a 0 16)))
  | 0x03 => reserved0 op a 21 3 (reserved0 op a 0 16 (.ok (.rdcfg (field a 16 5))))
  | 0x05 => reserved0 op a 1 23 (.ok (.frameBegin (flag a 0)))
  | 0x06 => reserved0 op a 0 24 (.ok .frameEnd)
  | 0x07 => .ok (.setMb (field a 12 12) (field a 0 12))
  | 0x08 => reserved0 op a 5 19 (.ok (.setMquant (field a 0 5)))
  | 0x10 => .ok (.brInit (field a 0 24))
  | 0x11 => reserved0 op a 0 24 (.ok .brReadBit)
  | 0x12 => reserved0 op a 6 18 (.ok (.brReadBits (field a 0 6)))
  | 0x13 => reserved0 op a 6 18 (.ok (.brReadSigned (field a 0 6)))
  | 0x14 => reserved0 op a 6 18 (.ok (.brPeek (field a 0 6)))
  | 0x15 => .ok (.brSkip (field a 0 24))
  | 0x16 => reserved0 op a 0 24 (.ok .brBitsLeft)
  | 0x17 => reserved0 op a 0 24 (.ok .brIsEmpty)
  | 0x18 => .ok (.brNeed (field a 0 24))
  | 0x20 => reserved0 op a 8 16 (.ok (.vlcDecode (field a 0 8)))
  | 0x21 => reserved0 op a 15 9 (.ok (.vlcMaxlevel (field a 0 8) (flag a 8) (field a 9 6)))
  | 0x22 => reserved0 op a 17 7 (.ok (.vlcMaxrun (field a 0 8) (flag a 8) (field a 9 8)))
  | 0x28 => reserved0 op a 8 16 (.ok (.dcVc1 (field a 0 8)))
  | 0x29 => reserved0 op a 8 16 (.ok (.dcWmv2 (field a 0 8)))
  | 0x2A => reserved0 op a 0 24 (.ok .clrCoef)
  | 0x2B => reserved0 op a 8 16 (.ok (.acSymVc1 (field a 0 8)))
  | 0x2C => reserved0 op a 13 11 (.ok (.acBlockVc1 (field a 0 8) (field a 8 4) (flag a 12)))
  | 0x2D => reserved0 op a 8 16 (.ok (.acSymWmv2 (field a 0 8)))
  | 0x2E => reserved0 op a 13 11 (.ok (.acBlockWmv2 (field a 0 8) (field a 8 4) (flag a 12)))
  | 0x2F => reserved0 op a 22 2 (.ok (.coefWr (field a 16 6) (field a 0 16)))
  | 0x30 => reserved0 op a 4 20 (.ok (.dqVc1 (field a 0 3) (flag a 3)))
  | 0x31 => reserved0 op a 4 20 (.ok (.dqWmv2 (field a 0 3) (flag a 3)))
  | 0x40 => reserved0 op a 3 21 (decodeIdct (field a 0 3).toNat)
  | 0x41 => reserved0 op a 2 22 (decodeWidct (field a 0 2).toNat)
  | 0x42 => reserved0 op a 3 21 (.ok (.blkPut (field a 0 3)))
  | 0x43 => reserved0 op a 3 21 (.ok (.blkAdd (field a 0 3)))
  | 0x50 => reserved0 op a 3 21 (.ok (.dcpredVc1 (field a 0 3)))
  | 0x51 => reserved0 op a 3 21 (.ok (.dcpredWmv2 (field a 0 3)))
  | 0x52 => reserved0 op a 3 21 (.ok (.predStore (field a 0 3)))
  | 0x53 => reserved0 op a 3 21 (.ok (.acpred (field a 0 3)))
  | 0x54 => reserved0 op a 5 19 (reserved0 op a 2 2 (.ok (.cbppred (field a 0 2) (flag a 4))))
  | 0x58 => reserved0 op a 0 24 (.ok .mvpred)
  | 0x59 => .ok (.setMv (flag a 23) (flag a 22) (field a 11 11) (field a 0 11))
  | 0x5A => reserved0 op a 1 23 (.ok (.mvstore (flag a 0)))
  | 0x5B => reserved0 op a 0 24 (.ok .mvBdirect)
  | 0x60 => reserved0 op a 1 23 (.ok (.mcBilin (flag a 0)))
  | 0x61 => reserved0 op a 1 23 (.ok (.mcMspel (flag a 0)))
  | 0x62 => reserved0 op a 1 23 (.ok (.mcCommit (flag a 0)))
  | n => .error (.unknownOpcode n)

/-- The decoder, total on every 32-bit word (R100, R102, R103). -/
def decode (w : Word) : Except Reject Instr := decodeArgs (opcodeOf w).toNat (argsOf w)

/-- The opcode of a command (R103). -/
def Instr.opcode : Instr → BitVec 8
  | .nop => 0x00
  | .resize _ _ => 0x01
  | .wrcfg _ _ => 0x02
  | .rdcfg _ => 0x03
  | .frameBegin _ => 0x05
  | .frameEnd => 0x06
  | .setMb _ _ => 0x07
  | .setMquant _ => 0x08
  | .brInit _ => 0x10
  | .brReadBit => 0x11
  | .brReadBits _ => 0x12
  | .brReadSigned _ => 0x13
  | .brPeek _ => 0x14
  | .brSkip _ => 0x15
  | .brBitsLeft => 0x16
  | .brIsEmpty => 0x17
  | .brNeed _ => 0x18
  | .vlcDecode _ => 0x20
  | .vlcMaxlevel _ _ _ => 0x21
  | .vlcMaxrun _ _ _ => 0x22
  | .dcVc1 _ => 0x28
  | .dcWmv2 _ => 0x29
  | .clrCoef => 0x2A
  | .acSymVc1 _ => 0x2B
  | .acBlockVc1 _ _ _ => 0x2C
  | .acSymWmv2 _ => 0x2D
  | .acBlockWmv2 _ _ _ => 0x2E
  | .coefWr _ _ => 0x2F
  | .dqVc1 _ _ => 0x30
  | .dqWmv2 _ _ => 0x31
  | .idct8x8 => 0x40
  | .idct8x4A => 0x40
  | .idct8x4B => 0x40
  | .idct4x8A => 0x40
  | .idct4x8B => 0x40
  | .idct4x4A => 0x40
  | .idct4x4B => 0x40
  | .widct8x8 => 0x41
  | .widct8x4 => 0x41
  | .widct4x8 => 0x41
  | .blkPut _ => 0x42
  | .blkAdd _ => 0x43
  | .dcpredVc1 _ => 0x50
  | .dcpredWmv2 _ => 0x51
  | .predStore _ => 0x52
  | .acpred _ => 0x53
  | .cbppred _ _ => 0x54
  | .mvpred => 0x58
  | .setMv _ _ _ _ => 0x59
  | .mvstore _ => 0x5A
  | .mvBdirect => 0x5B
  | .mcBilin _ => 0x60
  | .mcMspel _ => 0x61
  | .mcCommit _ => 0x62

/-- One bit of an encoding. -/
def bit (b : Bool) : BitVec 1 := BitVec.ofBool b

/-- The operand bits `cmd[23:0]` of a command: its fields at the places of R103, every reserved bit 0. -/
def Instr.args : Instr → BitVec 24
  | .nop => 0
  | .resize mbw mbh => mbw ++ mbh
  | .wrcfg idx val => 0#3 ++ idx ++ val
  | .rdcfg idx => 0#3 ++ idx ++ 0#16
  | .frameBegin ix8 => 0#23 ++ bit ix8
  | .frameEnd => 0
  | .setMb mbx mby => mbx ++ mby
  | .setMquant mq => 0#19 ++ mq
  | .brInit off => off
  | .brReadBit => 0
  | .brReadBits n => 0#18 ++ n
  | .brReadSigned n => 0#18 ++ n
  | .brPeek n => 0#18 ++ n
  | .brSkip n => n
  | .brBitsLeft => 0
  | .brIsEmpty => 0
  | .brNeed n => n
  | .vlcDecode t => 0#16 ++ t
  | .vlcMaxlevel t last run => 0#9 ++ run ++ bit last ++ t
  | .vlcMaxrun t last level => 0#7 ++ level ++ bit last ++ t
  | .dcVc1 t => 0#16 ++ t
  | .dcWmv2 t => 0#16 ++ t
  | .clrCoef => 0
  | .acSymVc1 t => 0#16 ++ t
  | .acBlockVc1 t sc intra => 0#11 ++ bit intra ++ sc ++ t
  | .acSymWmv2 t => 0#16 ++ t
  | .acBlockWmv2 t sc intra => 0#11 ++ bit intra ++ sc ++ t
  | .coefWr idx v => 0#2 ++ idx ++ v
  | .dqVc1 b intra => 0#20 ++ bit intra ++ b
  | .dqWmv2 b intra => 0#20 ++ bit intra ++ b
  | .idct8x8 => 0
  | .idct8x4A => 1
  | .idct8x4B => 2
  | .idct4x8A => 3
  | .idct4x8B => 4
  | .idct4x4A => 5
  | .idct4x4B => 6
  | .widct8x8 => 0
  | .widct8x4 => 1
  | .widct4x8 => 2
  | .blkPut b => 0#21 ++ b
  | .blkAdd b => 0#21 ++ b
  | .dcpredVc1 b => 0#21 ++ b
  | .dcpredWmv2 b => 0#21 ++ b
  | .predStore b => 0#21 ++ b
  | .acpred b => 0#21 ++ b
  | .cbppred b raw => 0#19 ++ bit raw ++ 0#2 ++ b
  | .mvpred => 0
  | .setMv sel addp x y => bit sel ++ bit addp ++ x ++ y
  | .mvstore skipped => 0#23 ++ bit skipped
  | .mvBdirect => 0
  | .mcBilin k => 0#23 ++ bit k
  | .mcMspel hshift => 0#23 ++ bit hshift
  | .mcCommit avg => 0#23 ++ bit avg

/-- The command word of a command (R100, R103). -/
def encode (i : Instr) : Word := i.opcode ++ i.args

/-- The command that opcode_table.json's numbering of a word of `nbits` bits stands for: bits above
`nbits` are 0, the word goes to the decoder whole (R100: one 32-bit word, bit 0 the least significant). -/
def decodeTableWord (nbits w : Nat) : Option Instr :=
  match decode (BitVec.ofNat 32 (w % 2 ^ nbits)) with
  | .ok i => some i
  | .error _ => none

end Sys2Proof
end

