-- ==== Sys2Proof/Machine/Ports.lean ====
section
/-! DEFINITION. The host's side of the engine (20_memory.md R86, R87): what the host reads on each port,
and what its next port write is to the engine. Reading a port changes nothing; a write is one step. -/

namespace Sys2Proof.Machine

/-! ## Reading -/

/-- Port `RES0` (R86). -/
def portRes0 (s : State) : Word := s.res0
/-- Port `RES1` (R86). -/
def portRes1 (s : State) : Word := s.res1
/-- Port `RES2` (R86). -/
def portRes2 (s : State) : Word := s.res2
/-- Port `STATUS` (R57, R86). -/
def portStatus (s : State) : Word := statusWord s
/-- Port `ERRCMD` (R58, R86). -/
def portErrcmd (s : State) : Word := s.errcmd
/-- Port `ERRPOS` (R58, R86). -/
def portErrpos (s : State) : Word := s.errpos

/-- Port `PAYLOAD[a]`, for a byte that exists (R59, R86). -/
def portPayload (s : State) (a : Nat) : Option Byte :=
  if a < s.params.raw.payloadMax then some (memRead s.payload a) else none

/-- Port `OUT_VALID` (R86). -/
def portOutValid (s : State) : Bool := s.out.isSome

/-- The number of a plane, for the free value of an absent `OUT`. -/
def planeNumber : PlaneId → Nat
  | .y => 0
  | .cb => 1
  | .cr => 2

/-- Ports `OUT.Y`, `OUT.Cb`, `OUT.Cr` at row-major offset `n`: the sample, none where the plane has no
such offset, and a free value while no `OUT` is present (R85, R86). -/
def portOut (s : State) (p : PlaneId) (n : Nat) : Option Byte :=
  match s.out with
  | some f => (f.plane p)[n]?
  | none => some (Config.outAbsent (planeNumber p) n)

/-- Port `OUT_MBW` (R86). -/
def portOutMbw (s : State) : BitVec 12 :=
  match s.out with
  | some f => f.mbw
  | none => Config.outSizeAbsent 0

/-- Port `OUT_MBH` (R86). -/
def portOutMbh (s : State) : BitVec 12 :=
  match s.out with
  | some f => f.mbh
  | none => Config.outSizeAbsent 1

/-! ## Writing -/

/-- `PAYLOAD[a] <- v` (R86). A byte that does not exist faults (DESIGN CHOICE, log entry 19). -/
def writePayload (a : Nat) (v : Byte) (s : State) : Host.Outcome State Fault Refusal :=
  if a < s.params.raw.payloadMax then .next { s with payload := memWrite s.payload a v }
  else .fault (.noPayloadByte a)

/-- `PAYLOAD_LEN <- v`, a value above `P_PAYLOAD_MAX` stored as `P_PAYLOAD_MAX` (R86). -/
def writePayloadLen (v : Word) (s : State) : Host.Outcome State Fault Refusal :=
  .next { s with payloadLen := n32 (min v.toNat s.params.raw.payloadMax) }

/-- What the engine finds at its ports. -/
inductive Fetched where
  /-- No host write is to come: the engine holds its state (R388). -/
  | idle
  /-- A host write of `PAYLOAD` or `PAYLOAD_LEN`, with its outcome. -/
  | wrote (o : Host.Outcome State Fault Refusal)
  /-- A command word that is a command of R103, and the state it runs in. -/
  | run (i : Instr) (s : State)
  /-- A command word that is none, and the state it is met in. -/
  | illegal (s : State)

/-- Takes the host's next port write; a command word becomes the `cmd` of R13 and is decoded. -/
def fetchNext (s : State) : Fetched :=
  match s.port with
  | [] => .idle
  | .payload a v :: rest => .wrote (writePayload a v { s with port := rest })
  | .payloadLen v :: rest => .wrote (writePayloadLen v { s with port := rest })
  | .cmd w :: rest =>
    match decode w with
    | .ok i => .run i { s with port := rest, cmd := w }
    | .error _ => .illegal { s with port := rest, cmd := w }

/-- The host's port writes with the command word that opcode_table.json numbers `w` before them. -/
def withCommandWord (s : State) (nbits w : Nat) : List PortWrite :=
  .cmd (BitVec.ofNat 32 (w % 2 ^ nbits)) :: s.port

end Sys2Proof.Machine
end

