-- ==== Sys2Proof/Machine/Step.lean ====
section
/-! DEFINITION. One step: the engine takes the host's next port write and completes it (R31, R87). -/

namespace Sys2Proof.Machine

/-- One step of the engine. -/
def step (s : State) : Host.Outcome State Fault Refusal :=
  match fetchNext s with
  | .idle => .next s
  | .wrote o => o
  | .run i t => exec i t
  | .illegal t => illegalCommand t

/-- `s` with one more host write before all others: the command word of `nbits` bits numbered `w`. The
next step runs it. -/
def State.withFetchWord (s : State) (nbits w : Nat) : State :=
  { s with port := withCommandWord s nbits w }

end Sys2Proof.Machine
end

