-- ==== Sys2Proof/Safety.lean ====
section
/-! DEFINITION. The terms the claims use: the "legal" column of 30_encoding.md R103 as one predicate, the
classes of commands the rules speak of, and the invariants of the machine. -/

namespace Sys2Proof.Machine

/-! ## Legal commands -/

/-- A command that R103 calls legal in a state: its fields are in range, the tables and the scan it names
exist and have the right kind, and the macroblock it selects lies in the picture. -/
def legalIn (s : State) (i : Instr) : Bool :=
  i.wf && match i with
    | .setMb mbx mby => decide (mbx.toNat < s.mbw.toNat) && decide (mby.toNat < s.mbh.toNat)
    | .vlcDecode t => (vlcTable s.params t).isSome
    | .vlcMaxlevel t _ _ => (acTable s.params t).isSome
    | .vlcMaxrun t _ _ => (acTable s.params t).isSome
    | .dcVc1 t => (scalarTable s.params t).isSome
    | .dcWmv2 t => (scalarTable s.params t).isSome
    | .acSymVc1 t => (acTable s.params t).isSome
    | .acSymWmv2 t => (acTable s.params t).isSome
    | .acBlockVc1 t sc _ => (acTable s.params t).isSome && (scanTable s.params sc).isSome
    | .acBlockWmv2 t sc _ => (acTable s.params t).isSome && (scanTable s.params sc).isSome
    | _ => true

/-- The six commands that still execute while `STATUS.ERR = 1` (R381). -/
def runsUnderError : Instr → Bool
  | .nop => true
  | .resize _ _ => true
  | .wrcfg _ _ => true
  | .rdcfg _ => true
  | .frameBegin _ => true
  | .frameEnd => true
  | _ => false

/-- The commands that write pixels (R342). -/
def writesPixels : Instr → Bool
  | .blkPut _ => true
  | .blkAdd _ => true
  | .mcBilin _ => true
  | .mcMspel _ => true
  | .mcCommit _ => true
  | _ => false

/-- The commands that need a picture size and no frame: those of 45_prediction.md but `SET_MV`. `SET_MB`
is left out: without a picture size its operands are illegal (R250). -/
def needsPicture : Instr → Bool
  | .dcpredVc1 _ => true
  | .dcpredWmv2 _ => true
  | .predStore _ => true
  | .acpred _ => true
  | .cbppred _ _ => true
  | .mvpred => true
  | .mvstore _ => true
  | _ => false

/-! ## What the claims say of one command -/

/-- The state after an error with code `code`, raised while none was recorded (R380): the first three
fields of the record and the abort of an open frame, nothing else. -/
def withError (code : BitVec 4) (s : State) : State :=
  { s with
    err := true
    ecode := code
    errcmd := s.cmd
    errpos := s.brPos
    fstate := if s.fstate.active then .aborted else s.fstate }

/-- The cursor `n` bits further, saturating (R131). -/
def advanced (s : State) (n : Nat) : Word := BitVec.ofNat 32 (min (s.brPos.toNat + n) (2 ^ 32 - 1))

/-- The payload bits from position `p` are the code of entry `e` of a table (R153, R157). -/
def CodeAt {σ : Type} (s : State) (es : List (VlcEntry σ)) (p : Nat) (e : VlcEntry σ) : Prop :=
  e ∈ es ∧ bitsFrom s p e.len = e.code

/-- The payload bits from position `p` begin with no code of a table (R153). -/
def NoCodeAt {σ : Type} (s : State) (es : List (VlcEntry σ)) (p : Nat) : Prop :=
  ∀ e ∈ es, bitsFrom s p e.len ≠ e.code

/-- The value of magnitude `mag` whose sign is the payload bit at `p`, 1 for negative (R176, R179). -/
def signAt (s : State) (p mag : Nat) : Int := if payloadBit s p = 1 then -(mag : Int) else (mag : Int)

/-- The results of an AC symbol (R179, R182). -/
def acSymDone (s : State) (run : Nat) (level : Int) (last : Bool) : State :=
  { s with
    res0 := BitVec.ofNat 32 run
    res1 := BitVec.ofInt 32 level
    res2 := if last then 1 else 0
    last := last }

/-- One symbol placed at scan index `i` (R172, R183). -/
def placed (s : State) (scan : List Nat) (i : Int) (r : RunLevel) : State :=
  { s with
    coef := s.coef.setIfInBounds (scan.getD i.toNat 0) (BitVec.ofInt 32 r.level)
    last := r.last }

/-- The symbols of a block read one after another from state `s`, scan index `idx` and count `n`, until
one has `last` set: `BlockRun sym scan s idx n t idx' n'` ends in `t`, `idx'`, `n'` (R183). -/
inductive BlockRun (sym : Engine RunLevel) (scan : List Nat) :
    State → Int → Nat → State → Int → Nat → Prop where
  | last {s u : State} {idx : Int} {n : Nat} {r : RunLevel} :
      sym s = .ok r u → idx + r.run + 1 < scan.length → r.last = true →
      BlockRun sym scan s idx n (placed u scan (idx + r.run + 1) r) (idx + r.run + 1) (n + 1)
  | more {s u t : State} {idx idx' : Int} {n n' : Nat} {r : RunLevel} :
      sym s = .ok r u → idx + r.run + 1 < scan.length → r.last = false →
      BlockRun sym scan (placed u scan (idx + r.run + 1) r) (idx + r.run + 1) (n + 1) t idx' n' →
      BlockRun sym scan s idx n t idx' n'

/-- The symbols of a block read one after another until one cannot be read or placed:
`BlockStop sym scan s idx n e t` stops with error `e` in state `t` (R172, R183). -/
inductive BlockStop (sym : Engine RunLevel) (scan : List Nat) :
    State → Int → ErrCode → State → Prop where
  | unreadable {s u : State} {idx : Int} {e : ErrCode} :
      sym s = .error e u → BlockStop sym scan s idx e u
  | overflow {s u : State} {idx : Int} {r : RunLevel} :
      sym s = .ok r u → (scan.length : Int) ≤ idx + r.run + 1 → BlockStop sym scan s idx .coefOverflow u
  | more {s u t : State} {idx : Int} {e : ErrCode} {r : RunLevel} :
      sym s = .ok r u → idx + r.run + 1 < scan.length → r.last = false →
      BlockStop sym scan (placed u scan (idx + r.run + 1) r) (idx + r.run + 1) e t →
      BlockStop sym scan s idx e t

/-- From position `p` the payload holds `z` bits 0 that raise a count from `start` to `start + z <= 8`,
and, when that is below 8, one bit 1 that ends it: `used` bits in all (R181). -/
def ZerosAt (s : State) (p start z used : Nat) : Prop :=
  (∀ k, k < z → payloadBit s (p + k) = 0) ∧ start + z ≤ 8 ∧
    ((start + z < 8 ∧ payloadBit s (p + z) = 1 ∧ used = z + 1) ∨ (start + z = 8 ∧ used = z))

/-- The escape-3 length fields at position `p`, `used` bits long, give the level width `ll` and the run
width `rl` (R181). -/
def LengthsAt (s : State) (p ll rl used : Nat) : Prop :=
  ∃ n, used = n + 2 ∧ rl = bitsFrom s (p + n) 2 + 3 ∧
    ((cfgPquant s < 8 ∧ bitsFrom s p 3 ≠ 0 ∧ ll = bitsFrom s p 3 ∧ n = 3)
      ∨ (cfgPquant s < 8 ∧ bitsFrom s p 3 = 0 ∧ ∃ u, ZerosAt s (p + 3) 0 ll u ∧ n = 3 + u)
      ∨ (8 ≤ cfgPquant s ∧ ∃ z u, ZerosAt s p 2 z u ∧ ll = 2 + z ∧ n = u))

/-- What an offset escape makes of a command with outcome `o`: a second code is decoded `k` bits after the
cursor; none there raises `E_VLC_INVALID`, a second `ESC` raises `E_SYMBOL`, and a symbol is followed by its
sign bit and completed by `adj` of its run, magnitude and last flag (R180, R182). -/
def OffsetEscape (o : Host.Outcome State Fault Refusal) (s : State) (es : List (VlcEntry AcSym)) (k : Nat)
    (adj : Nat → Nat → Bool → Nat × Nat) : Prop :=
  (NoCodeAt s es (s.brPos.toNat + k) → o = .next (withError 1 { s with brPos := advanced s k }))
    ∧ ∀ e, CodeAt s es (s.brPos.toNat + k) e →
      (e.sym = .esc → o = .next (withError 3 { s with brPos := advanced s (k + e.len) }))
      ∧ ∀ run mag last, e.sym = .rle run mag last →
        o = .next (acSymDone { s with brPos := advanced s (k + e.len + 1) } (adj run mag last).1
          (signAt s (s.brPos.toNat + k + e.len) (adj run mag last).2) last)

/-- The plane of block `b` of macroblock `(mx, my)` and the place of its top-left sample (R251). -/
def originOf (mx my : Nat) : Nat → PlaneId × Nat × Nat
  | 0 => (.y, 16 * mx, 16 * my)
  | 1 => (.y, 16 * mx + 8, 16 * my)
  | 2 => (.y, 16 * mx, 16 * my + 8)
  | 3 => (.y, 16 * mx + 8, 16 * my + 8)
  | 4 => (.cb, 8 * mx, 8 * my)
  | _ => (.cr, 8 * mx, 8 * my)

/-- A frame of the current picture size is open and `f` is in `CUR`; the current macroblock lies in it. -/
structure OpenWith (s : State) (f : Frame) : Prop where
  noError : s.err = false
  opened : s.fstate = .opened
  cur : s.cur = some f
  column : s.mbx.toNat < f.mbw.toNat
  row : s.mby.toNat < f.mbh.toNat

/-- `h` reads as `g` but for the value `v` at key `k`. -/
def Grid.SetAt {α : Type} (g : Grid α) (k : Nat) (v : α) (h : Grid α) : Prop :=
  h.read k = v ∧ ∀ j, j ≠ k → h.read j = g.read j

/-- `m` is the bilinear prediction of the current macroblock from `f` with vector `mv`: each sample the
rounded average of the reference samples at the two columns and the two rows that the half-pel fractions
select, the chroma vectors derived from the luma one (R292 to R294). -/
def Bilinear (s : State) (f : Frame) (mv : Mv) (m : McBuf) : Prop :=
  ∀ (p : PlaneId) (r c : Nat), r < p.unit → c < p.unit →
    let half (v : Int) : Int :=
      if s.fc = .vc1 ∧ cfgFastuvmc s = true ∧ Int.tdiv v 2 % 2 = 1 then Int.tdiv v 2 - (Int.tdiv v 2).sign
      else Int.tdiv v 2
    let vx := if p = .y then mv.x.toInt else half mv.x.toInt
    let vy := if p = .y then mv.y.toInt else half mv.y.toInt
    let x : Int := p.unit * s.mbx.toNat + c + vx / 2
    let y : Int := p.unit * s.mby.toNat + r + vy / 2
    let x' := x + vx % 2
    let y' := y + vy % 2
    ((m.sample p r c).toNat : Int)
      = (refPix f p x y + refPix f p x' y + refPix f p x y' + refPix f p x' y' + 2) / 4

/-- The state that `FRAME_BEGIN` leaves when its checks pass: the error record and the frame marks cleared,
codec and type latched, every predictor at its per-picture default, then the slots, `FSTATE` and marks of
the frame's row of R341 (R340, R341). -/
def pictureOpened (s : State) (fc : Codec) (ft : FrameType) (fstate : FState) (cur wref0 wref1 : Option Frame)
    (noref skipb ix8 : Bool) : State :=
  { s with
    err := false, ecode := 0, errcmd := 0, errpos := 0
    fc := fc, ft := ft
    dcb := Grid.fresh (match fc with
      | .vc1 => s.params.raw.dcSentinelVc1
      | .wmv2 => s.params.raw.dcSentinelWmv2)
    acrow := Grid.fresh 0, accol := Grid.fresh 0, mvbuf := Grid.fresh ⟨0, 0, true⟩
    cbpb := Grid.fresh false, recon := Grid.fresh false
    esc3LL := 0, esc3RL := 0, mqValid := false, mbx := 0, mby := 0
    fstate := fstate, cur := cur, wref0 := wref0, wref1 := wref1
    noref := noref, skipb := skipb, ix8 := ix8 }

/-- The state a failed check of `FRAME_BEGIN` raises its error in (R340). -/
def recordCleared (s : State) : State :=
  { s with
    err := false, ecode := 0, errcmd := 0, errpos := 0, fstate := .idle
    noref := false, skipb := false, ix8 := false }

/-- Which error a command may raise, the "raised by" column of R382. -/
def mayRaise (e : ErrCode) (i : Instr) : Bool :=
  match e with
  | .badCmd => true
  | .hdrShort => match i with
    | .brNeed _ => true
    | _ => false
  | .vlcInvalid => match i with
    | .vlcDecode _ | .dcVc1 _ | .dcWmv2 _ | .acSymVc1 _ | .acSymWmv2 _ | .acBlockVc1 _ _ _
    | .acBlockWmv2 _ _ _ => true
    | _ => false
  | .underrun | .symbol => match i with
    | .dcVc1 _ | .dcWmv2 _ | .acSymVc1 _ | .acSymWmv2 _ | .acBlockVc1 _ _ _ | .acBlockWmv2 _ _ _ => true
    | _ => false
  | .coefOverflow => match i with
    | .acBlockVc1 _ _ _ | .acBlockWmv2 _ _ _ => true
    | _ => false
  | .seq => writesPixels i || needsPicture i || match i with
    | .frameBegin _ | .frameEnd => true
    | _ => false
  | .badCfg => match i with
    | .frameBegin _ | .mvBdirect => true
    | _ => false

/-! ## Who writes what -/

/-- The parts of the state that only some commands write. -/
inductive Part where
  | host | cfg | latched | size | position | mquant | mqValid | brPos | brLen | res0 | res1 | res2
  | dcdiff | pdir | coef | pmv | mvf | mvbk | esc3 | predictors | mvbuf | cbpb | recon | cur | anchors
  | working | mcbuf0 | mcbuf1 | last | marks
deriving DecidableEq, Repr

/-- Two states agree in a part. -/
def Part.same (s t : State) : Part → Prop
  | .host => t.params = s.params ∧ t.payload = s.payload ∧ t.payloadLen = s.payloadLen ∧ t.cmd = s.cmd
      ∧ t.port = s.port
  | .cfg => t.cfg = s.cfg
  | .latched => t.fc = s.fc ∧ t.ft = s.ft
  | .size => t.mbw = s.mbw ∧ t.mbh = s.mbh
  | .position => t.mbx = s.mbx ∧ t.mby = s.mby
  | .mquant => t.mquant = s.mquant
  | .mqValid => t.mqValid = s.mqValid
  | .brPos => t.brPos = s.brPos
  | .brLen => t.brLen = s.brLen
  | .res0 => t.res0 = s.res0
  | .res1 => t.res1 = s.res1
  | .res2 => t.res2 = s.res2
  | .dcdiff => t.dcdiff = s.dcdiff
  | .pdir => t.pdir = s.pdir
  | .coef => t.coef = s.coef
  | .pmv => t.pmv = s.pmv
  | .mvf => t.mvf = s.mvf
  | .mvbk => t.mvbk = s.mvbk
  | .esc3 => t.esc3LL = s.esc3LL ∧ t.esc3RL = s.esc3RL
  | .predictors => t.dcb = s.dcb ∧ t.acrow = s.acrow ∧ t.accol = s.accol
  | .mvbuf => t.mvbuf = s.mvbuf
  | .cbpb => t.cbpb = s.cbpb
  | .recon => t.recon = s.recon
  | .cur => t.cur = s.cur
  | .anchors => t.out = s.out ∧ t.ref = s.ref ∧ t.fwd = s.fwd ∧ t.bwd = s.bwd ∧ t.w2ref = s.w2ref
      ∧ t.prevRrf = s.prevRrf
  | .working => t.wref0 = s.wref0 ∧ t.wref1 = s.wref1
  | .mcbuf0 => t.mcbuf0 = s.mcbuf0
  | .mcbuf1 => t.mcbuf1 = s.mcbuf1
  | .last => t.last = s.last
  | .marks => t.noref = s.noref ∧ t.skipb = s.skipb ∧ t.ix8 = s.ix8

/-- The parts a command may write, as its rule lists them; the error record and `FSTATE` are apart, since
any command may raise an error. -/
def partsOf : Instr → List Part
  | .nop => []
  | .resize _ _ => [.size, .predictors, .mvbuf, .cbpb, .recon, .cur, .anchors, .working, .position,
      .mqValid, .esc3, .marks]
  | .wrcfg _ _ => [.cfg]
  | .rdcfg _ => [.res0]
  | .frameBegin _ => [.latched, .predictors, .mvbuf, .cbpb, .recon, .cur, .working, .position, .mqValid,
      .esc3, .marks]
  | .frameEnd => [.cur, .anchors, .working]
  | .setMb _ _ => [.position, .mqValid]
  | .setMquant _ => [.mquant, .mqValid]
  | .brInit _ => [.brLen, .brPos]
  | .brReadBit => [.res0, .brPos]
  | .brReadBits _ => [.res0, .brPos]
  | .brReadSigned _ => [.res0, .brPos]
  | .brPeek _ => [.res0]
  | .brSkip _ => [.brPos]
  | .brBitsLeft => [.res0]
  | .brIsEmpty => [.res0]
  | .brNeed _ => []
  | .vlcDecode _ => [.res0, .res1, .brPos]
  | .vlcMaxlevel _ _ _ => [.res0]
  | .vlcMaxrun _ _ _ => [.res0]
  | .dcVc1 _ => [.dcdiff, .res0, .brPos]
  | .dcWmv2 _ => [.dcdiff, .res0, .brPos]
  | .clrCoef => [.coef]
  | .acSymVc1 _ => [.res0, .res1, .res2, .last, .brPos]
  | .acBlockVc1 _ _ _ => [.coef, .res0, .res1, .last, .brPos]
  | .acSymWmv2 _ => [.res0, .res1, .res2, .last, .brPos, .esc3]
  | .acBlockWmv2 _ _ _ => [.coef, .res0, .res1, .last, .brPos, .esc3]
  | .coefWr _ _ => [.coef]
  | .dqVc1 _ _ => [.coef]
  | .dqWmv2 _ _ => [.coef]
  | .idct8x8 => [.coef]
  | .idct8x4A => [.coef]
  | .idct8x4B => [.coef]
  | .idct4x8A => [.coef]
  | .idct4x8B => [.coef]
  | .idct4x4A => [.coef]
  | .idct4x4B => [.coef]
  | .widct8x8 => [.coef]
  | .widct8x4 => [.coef]
  | .widct4x8 => [.coef]
  | .blkPut _ => [.cur, .recon]
  | .blkAdd _ => [.cur, .recon]
  | .dcpredVc1 _ => [.coef, .res0, .pdir]
  | .dcpredWmv2 _ => [.coef, .res0, .pdir]
  | .predStore _ => [.predictors]
  | .acpred _ => [.coef]
  | .cbppred _ _ => [.cbpb, .res0]
  | .mvpred => [.pmv, .res0, .res1]
  | .setMv sel _ _ _ => if sel then [.mvbk] else [.mvf]
  | .mvstore _ => [.mvbuf]
  | .mvBdirect => [.mvf, .mvbk, .res0, .res1]
  | .mcBilin k => if k then [.mcbuf1] else [.mcbuf0]
  | .mcMspel _ => [.mcbuf0]
  | .mcCommit _ => [.cur, .recon]

/-! ## The filters as the spec orders them: boundary after boundary, sample after sample, in place -/

/-- `Pix(F, p, x, y) <- v` (R15). -/
def Frame.setPix (f : Frame) (p : PlaneId) (x y : Nat) (v : Byte) : Frame :=
  match p with
  | .y => { f with y := f.y.set (y * f.width .y + x) v }
  | .cb => { f with cb := f.cb.set (y * f.width .cb + x) v }
  | .cr => { f with cr := f.cr.set (y * f.width .cr + x) v }

/-- The internal boundaries of a line of `len` samples, in rising order (R320). -/
def boundaries (len : Nat) : List Nat := (List.range len).filter fun x => decide (x % 8 = 0) && decide (0 < x)

/-- One sample pair of a vertical boundary at column `x`, filtered in place (R320, R323, R324). -/
def filterAcross (k : Int → Int → Int → Int → EdgePair) (recon : Grid Bool) (p : PlaneId) (x y : Nat)
    (f : Frame) : Frame :=
  if reconAt recon p (x - 1) y = true ∧ reconAt recon p x y = true then
    let e := k (pixInt f p (x - 2) y) (pixInt f p (x - 1) y) (pixInt f p x y) (pixInt f p (x + 1) y)
    (f.setPix p (x - 1) y (u8 e.before)).setPix p x y (u8 e.after)
  else f

/-- One sample pair of a horizontal boundary at row `y`, filtered in place (R320, R323, R324). -/
def filterDown (k : Int → Int → Int → Int → EdgePair) (recon : Grid Bool) (p : PlaneId) (x y : Nat)
    (f : Frame) : Frame :=
  if reconAt recon p x (y - 1) = true ∧ reconAt recon p x y = true then
    let e := k (pixInt f p x (y - 2)) (pixInt f p x (y - 1)) (pixInt f p x y) (pixInt f p x (y + 1))
    (f.setPix p x (y - 1) (u8 e.before)).setPix p x y (u8 e.after)
  else f

/-- A plane's vertical boundaries in rising order, each row rising, then its horizontal boundaries in
rising order, each column rising, in place (R322). -/
def filterPlane (k : Int → Int → Int → Int → EdgePair) (recon : Grid Bool) (p : PlaneId) (f : Frame) :
    Frame :=
  let across := (boundaries (f.width p)).foldl (fun g x =>
    (List.range (f.height p)).foldl (fun h y => filterAcross k recon p x y h) g) f
  (boundaries (f.height p)).foldl (fun g y =>
    (List.range (f.width p)).foldl (fun h x => filterDown k recon p x y h) g) across

/-- One filter stage in the order of R322: `Y`, then `Cb`, then `Cr`. -/
def filterInOrder (k : Int → Int → Int → Int → EdgePair) (recon : Grid Bool) (f : Frame) : Frame :=
  [PlaneId.y, .cb, .cr].foldl (fun g p => filterPlane k recon p g) f

/-! ## Invariants -/

/-- The error record and the frame state agree (R380, R381, R385). -/
structure ErrorInv (s : State) : Prop where
  clear : s.err = false → s.ecode = 0 ∧ s.errcmd = 0 ∧ s.errpos = 0
  recorded : s.err = true → 1 ≤ s.ecode.toNat ∧ s.ecode.toNat ≤ 8
  closed : s.err = true → s.fstate.active = false
  aborted : s.fstate = .aborted → s.err = true

/-- Every sparse buffer has its one canonical form. -/
structure StoreInv (s : State) : Prop where
  payload : Memory.wf s.params.raw.payloadMax s.payload
  dcb : s.dcb.wf
  acrow : s.acrow.wf
  accol : s.accol.wf
  mvbuf : s.mvbuf.wf
  cbpb : s.cbpb.wf
  recon : s.recon.wf

/-- A slot is absent or holds a frame of the current picture size with all its samples (R51, R52). -/
def slotOk (s : State) (slot : Option Frame) : Prop :=
  ∀ f, slot = some f → f.wf ∧ f.mbw = s.mbw ∧ f.mbh = s.mbh

/-- Every frame slot holds nothing or a frame of the current picture size (R51, R52, R352). -/
structure FramesInv (s : State) : Prop where
  cur : slotOk s s.cur
  out : slotOk s s.out
  ref : slotOk s s.ref
  fwd : slotOk s s.fwd
  bwd : slotOk s s.bwd
  w2ref : slotOk s s.w2ref
  wref0 : slotOk s s.wref0
  wref1 : slotOk s s.wref1

/-- Registers stay in the ranges the spec gives them: the current macroblock in the picture (R37, R250),
the payload and reader lengths within the payload memory (R39, R59), the escape-3 widths (R46, R181). -/
structure RangeInv (s : State) : Prop where
  size : s.mbw = 0 ↔ s.mbh = 0
  column : s.mbx.toNat < s.mbw.toNat ∨ (s.mbw = 0 ∧ s.mbx = 0)
  row : s.mby.toNat < s.mbh.toNat ∨ (s.mbh = 0 ∧ s.mby = 0)
  payloadLen : s.payloadLen.toNat ≤ s.params.raw.payloadMax
  brLen : s.brLen.toNat ≤ 8 * s.params.raw.payloadMax
  esc3LL : s.esc3LL.toNat ≤ 8
  esc3RL : s.esc3RL.toNat ≤ 6

/-- The slots of an open frame are those that R341 fills for its type. -/
structure OpenInv (s : State) : Prop where
  cur : s.fstate = .opened → s.cur.isSome = true
  noref : s.fstate = .suppressed .noref → s.cur.isSome = true
  size : s.fstate.active = true → s.mbw ≠ 0
  predicted : s.fstate = .opened → s.ft = .p → s.wref0.isSome = true
  bidirectional : s.fstate = .opened → s.ft = .b → s.wref0.isSome = true ∧ s.wref1.isSome = true

end Sys2Proof.Machine
end

