-- ==== Sys2Proof/Certificates/Slice0/Obligations.lean ====
section
/-! DEFINITION. The statements about the model, each with the rules of spec/ it formalises. -/

open Sys2Proof Sys2Proof.Machine

/-! ## Encoding and decoding -/

/-- Every command, with every operand, is decoded from its own encoding (R100, R103): no operand bit is
dropped. -/
def Obligations.DecodeOfEncode : Prop := ∀ i : Instr, decode (encode i) = .ok i

/-- A word is accepted as the one command whose encoding it is: no reserved bit is ignored (R102). -/
def Obligations.EncodeOfDecode : Prop := ∀ (w : Word) (i : Instr), decode w = .ok i → encode i = w

/-- Command words the spec writes out (R108, R178, R350, V42.20, V44.2, V45.11, V45.17) decode to the
commands they stand for. -/
def Obligations.SpecWords : Prop :=
  decode 0x12000005 = .ok (.brReadBits 5)
    ∧ decode 0x2C000000 = .ok (.acBlockVc1 0 0 false)
    ∧ decode 0x07001002 = .ok (.setMb 1 2)
    ∧ decode 0x2F000067 = .ok (.coefWr 0 103)
    ∧ decode 0x597FF802 = .ok (.setMv false true (-1) 2)
    ∧ decode 0x40000002 = .ok .idct8x4B
    ∧ decode 0x54000011 = .ok (.cbppred 1 true)
    ∧ decode 0x02020004 = .ok (.wrcfg 2 4)

/-- A command word that is not the encoding of a command legal in this state raises `E_BAD_CMD` and has
no other effect, and so does a command that is not legal (R102). -/
def Obligations.IllegalCommandRaises : Prop :=
  (∀ (s : State) (w : Word) (rest : List PortWrite), s.port = .cmd w :: rest → s.err = false →
    (∀ i, encode i = w → legalIn s i = false) →
    step s = .next (withError 6 { s with port := rest, cmd := w }))
    ∧ ∀ (s : State) (i : Instr), s.err = false → legalIn s i = false → exec i s = .next (withError 6 s)

/-! ## The step, the ports and the errors -/

/-- A step whose next port write is a command word runs that command, in the state that holds the word
as the command being executed; `withFetchWord` puts a command there. -/
def Obligations.StepRunsDecodedCommand : Prop :=
  (∀ (s : State) (w : Word) (rest : List PortWrite) (i : Instr),
      s.port = .cmd w :: rest → decode w = .ok i → step s = exec i { s with port := rest, cmd := w })
    ∧ ∀ (s : State) (i : Instr),
      step (s.withFetchWord 32 (encode i).toNat) = exec i { s with cmd := encode i }

/-- The host's writes of `PAYLOAD` and `PAYLOAD_LEN`, and its reads of `PAYLOAD` (R86): a byte written reads back,
every other byte and, after a write of the length, every byte reads as before. Without a write the engine
holds its state (R388). For a payload byte that does not exist (R59), the fault of a write and the missing
value of a read are the model's choice, log entry 19. -/
def Obligations.HostPortWrites : Prop :=
  ∀ (s : State) (rest : List PortWrite),
    (s.port = [] → step s = .next s)
    ∧ (∀ a v, s.port = .payload a v :: rest → a < s.params.raw.payloadMax →
        step s = .next { s with port := rest, payload := memWrite s.payload a v })
    ∧ (∀ a v, s.port = .payload a v :: rest → s.params.raw.payloadMax ≤ a →
        step s = .fault (.noPayloadByte a))
    ∧ (∀ v, s.port = .payloadLen v :: rest → v.toNat ≤ s.params.raw.payloadMax →
        step s = .next { s with port := rest, payloadLen := v })
    ∧ (∀ v, s.port = .payloadLen v :: rest → s.params.raw.payloadMax < v.toNat →
        step s = .next { s with port := rest, payloadLen := BitVec.ofNat 32 s.params.raw.payloadMax })
    ∧ (∀ a, a < s.params.raw.payloadMax → portPayload s a = some (memRead s.payload a))
    ∧ (∀ a, s.params.raw.payloadMax ≤ a → portPayload s a = none)
    ∧ (∀ a v t, s.port = .payload a v :: rest → step s = .next t →
        portPayload t a = some v ∧ ∀ b, b ≠ a → portPayload t b = portPayload s b)
    ∧ ∀ v t, s.port = .payloadLen v :: rest → step s = .next t → ∀ b, portPayload t b = portPayload s b

/-- Bit `i` of the payload is bit `7 - i % 8` of byte `i / 8` below `BR_LEN` and 0 from there on (R81). A
host write of a byte changes exactly its eight bits, a host write of `PAYLOAD_LEN` none. -/
def Obligations.PayloadBits : Prop :=
  (∀ (s : State) (i : Nat), payloadBit s i
      = if s.brLen.toNat ≤ i then 0
        else ((memRead s.payload (i >>> 3)).toNat / 2 ^ (7 - i % 8)) % 2)
    ∧ (∀ (s t : State) (a : Nat) (v : Byte) (rest : List PortWrite) (i : Nat),
      s.port = .payload a v :: rest → step s = .next t →
      payloadBit t i
        = if i / 8 = a ∧ i < s.brLen.toNat then (v.toNat / 2 ^ (7 - i % 8)) % 2 else payloadBit s i)
    ∧ ∀ (s t : State) (v : Word) (rest : List PortWrite) (i : Nat),
      s.port = .payloadLen v :: rest → step s = .next t → payloadBit t i = payloadBit s i

/-- Every command completes with a next state, in every state (R87, R384, R386): this says that no command
faults or refuses, and gives no effect. That the one way a step stops is the fault at the host's write of a
payload byte that does not exist is the model's choice, log entry 19. -/
def Obligations.EveryCommandCompletes : Prop :=
  (∀ (i : Instr) (s : State), ∃ t, exec i s = .next t)
    ∧ ∀ (s : State), (∃ t, step s = .next t)
      ∨ ∃ a v rest, s.port = .payload a v :: rest ∧ s.params.raw.payloadMax ≤ a
        ∧ step s = .fault (.noPayloadByte a)

/-- While `STATUS.ERR = 1` every command but the six completes without any effect, and `FRAME_END` of the
aborted frame returns to `IDLE` without output or rotation (R381). That an illegal command word, a `NOP` or
other word of the six with a reserved bit set among them, then has no effect either is the model's inference
from R380 and R381, log entry 10. -/
def Obligations.IgnoredUnderError : Prop :=
  (∀ (i : Instr) (s : State), s.err = true → runsUnderError i = false → exec i s = .next s)
    ∧ (∀ (s : State) (w : Word) (rest : List PortWrite), s.port = .cmd w :: rest → s.err = true →
      (∀ i, encode i = w → runsUnderError i = false) →
      step s = .next { s with port := rest, cmd := w })
    ∧ ∀ (s : State), s.fstate = .aborted →
      exec .frameEnd s
        = .next { s with cur := none, wref0 := none, wref1 := none, fstate := .idle }

/-- An error that a command raises with none recorded is recorded whole (R380), with a code that R382 lets
the command raise, and no frame stays open. -/
def Obligations.ErrorsRecorded : Prop :=
  ∀ (i : Instr) (s t : State), s.err = false → exec i s = .next t → t.err = true →
    (∃ e : ErrCode, mayRaise e i = true ∧ t.ecode = e.code)
      ∧ t.errcmd = s.cmd ∧ t.errpos = t.brPos ∧ t.fstate.active = false

/-- The first error stays recorded: only `FRAME_BEGIN` with no frame open and a legal `RESIZE` clear it
(R385). -/
def Obligations.FirstErrorKept : Prop :=
  ∀ (i : Instr) (s t : State), s.err = true → exec i s = .next t →
    (t.err = true ∧ t.ecode = s.ecode ∧ t.errcmd = s.errcmd ∧ t.errpos = s.errpos)
      ∨ (∃ w h, i = .resize w h ∧ legalSize w h = true
          ∧ t.err = false ∧ t.ecode = 0 ∧ t.errcmd = 0 ∧ t.errpos = 0)
      ∨ ∃ x, i = .frameBegin x ∧ s.fstate.active = false
          ∧ ((t.err = false ∧ t.ecode = 0 ∧ t.errcmd = 0 ∧ t.errpos = 0)
            ∨ (t.err = true ∧ (t.ecode = 7 ∨ t.ecode = 8) ∧ t.errcmd = s.cmd ∧ t.errpos = s.brPos))

/-- No command changes a part of the state that its rule does not write (R40, R84, R343, R384, R411): the
frame of every command. -/
def Obligations.OnlyListedPartsChange : Prop :=
  ∀ (i : Instr) (s t : State) (p : Part), exec i s = .next t → p ∉ partsOf i → Part.same s t p

/-! ## Invariants that every step keeps -/

/-- The error record and the frame state agree after every step (R380, R381, R385). -/
def Obligations.StepKeepsErrorInv : Prop :=
  ∀ s t : State, ErrorInv s → step s = .next t → ErrorInv t

/-- Every sparse buffer keeps its one canonical form under every step. The form is the model's own choice, log
entries 3 and 25: the spec gives the buffers (R47 to R50, R54, R59) and says nothing of how they are listed. -/
def Obligations.StepKeepsStoreInv : Prop :=
  ∀ s t : State, StoreInv s → step s = .next t → StoreInv t

/-- Under every step each frame slot stays absent or a frame of the picture size (R51, R52, R352). -/
def Obligations.StepKeepsFramesInv : Prop :=
  ∀ s t : State, FramesInv s → step s = .next t → FramesInv t

/-- Every step keeps the current macroblock inside the picture and the lengths and widths in range (R37,
R39, R46, R59, R250). -/
def Obligations.StepKeepsRangeInv : Prop :=
  ∀ s t : State, RangeInv s → step s = .next t → RangeInv t

/-- Every step keeps an open frame with the slots that R341 fills for its type. -/
def Obligations.StepKeepsOpenInv : Prop :=
  ∀ s t : State, OpenInv s → step s = .next t → OpenInv t

/-! ## Reset and the host's view -/

/-- The state after power-on reset (R410). -/
def Obligations.ResetState : Prop :=
  let s := State.reset
  s.params = Config.params
    ∧ (∀ i : Fin 32, s.cfg[i] = 0)
    ∧ s.fc = .vc1 ∧ s.ft = .i ∧ s.mbw = 0 ∧ s.mbh = 0 ∧ s.mbx = 0 ∧ s.mby = 0
    ∧ s.mquant = 0 ∧ s.mqValid = false ∧ s.brPos = 0 ∧ s.brLen = 0
    ∧ s.res0 = 0 ∧ s.res1 = 0 ∧ s.res2 = 0 ∧ s.dcdiff = 0 ∧ s.pdir = false
    ∧ (∀ i : Fin 64, s.coef[i] = 0)
    ∧ s.pmv = ⟨0, 0⟩ ∧ s.mvf = ⟨0, 0⟩ ∧ s.mvbk = ⟨0, 0⟩ ∧ s.esc3LL = 0 ∧ s.esc3RL = 0
    ∧ s.dcb.cells = [] ∧ s.acrow.cells = [] ∧ s.accol.cells = [] ∧ s.mvbuf.cells = []
    ∧ s.cbpb.cells = [] ∧ s.recon.cells = []
    ∧ s.cur = none ∧ s.out = none ∧ s.ref = none ∧ s.fwd = none ∧ s.bwd = none ∧ s.w2ref = none
    ∧ s.wref0 = none ∧ s.wref1 = none
    ∧ (∀ (p : PlaneId) (r c : Nat), r < p.unit → c < p.unit →
        s.mcbuf0.sample p r c = 0 ∧ s.mcbuf1.sample p r c = 0)
    ∧ s.fstate = .idle ∧ s.prevRrf = false
    ∧ s.err = false ∧ s.ecode = 0 ∧ s.last = false ∧ s.noref = false ∧ s.skipb = false ∧ s.ix8 = false
    ∧ portStatus s = 0x00008000
    ∧ s.errcmd = 0 ∧ s.errpos = 0
    ∧ (∀ a, memRead s.payload a = Config.payloadReset a) ∧ s.payloadLen = 0

/-- The state after power-on reset meets every invariant that the steps keep. -/
def Obligations.ResetMeetsInvariants : Prop :=
  ErrorInv State.reset ∧ StoreInv State.reset ∧ FramesInv State.reset ∧ RangeInv State.reset
    ∧ OpenInv State.reset

/-- Every bit of `STATUS` (R57), the extradata word, its fields and the slice height derived from it (R34), and
every configuration field that a command reads (R33). -/
def Obligations.StatusAndFields : Prop :=
  ∀ s : State,
    (portStatus s).getLsbD 0 = s.err
    ∧ (portStatus s).extractLsb' 1 3 = 0
    ∧ (portStatus s).extractLsb' 4 4 = s.ecode
    ∧ (portStatus s).getLsbD 8 = s.pdir
    ∧ (portStatus s).getLsbD 9 = s.last
    ∧ (portStatus s).getLsbD 10 = s.noref
    ∧ (portStatus s).getLsbD 11 = s.skipb
    ∧ (portStatus s).getLsbD 12 = s.ix8
    ∧ (s.fstate = .idle → (portStatus s).extractLsb' 13 2 = 0)
    ∧ (s.fstate = .opened → (portStatus s).extractLsb' 13 2 = 1)
    ∧ (∀ k, s.fstate = .suppressed k → (portStatus s).extractLsb' 13 2 = 2)
    ∧ (s.fstate = .aborted → (portStatus s).extractLsb' 13 2 = 3)
    ∧ (portStatus s).getLsbD 15 = decide (s.brLen.toNat ≤ s.brPos.toNat)
    ∧ (portStatus s).extractLsb' 16 16 = 0
    ∧ extradata s = s.cfg[(22 : Fin 32)] ++ s.cfg[(23 : Fin 32)]
    ∧ exFps (extradata s) = s.cfg[(22 : Fin 32)].extractLsb' 11 5
    ∧ exBitrateK (extradata s) = s.cfg[(22 : Fin 32)].extractLsb' 0 11
    ∧ exMspel (extradata s) = s.cfg[(23 : Fin 32)].getLsbD 15
    ∧ exLoopfilter (extradata s) = s.cfg[(23 : Fin 32)].getLsbD 14
    ∧ exAbtFlag (extradata s) = s.cfg[(23 : Fin 32)].getLsbD 13
    ∧ exJTypeBit (extradata s) = s.cfg[(23 : Fin 32)].getLsbD 12
    ∧ exTopLeftMvFlag (extradata s) = s.cfg[(23 : Fin 32)].getLsbD 11
    ∧ exPerMbRlBit (extradata s) = s.cfg[(23 : Fin 32)].getLsbD 10
    ∧ exSliceCode (extradata s) = s.cfg[(23 : Fin 32)].extractLsb' 7 3
    ∧ (s.cfg[(23 : Fin 32)].extractLsb' 7 3 = 0 → exSliceHeight s = none)
    ∧ (s.cfg[(23 : Fin 32)].extractLsb' 7 3 ≠ 0 →
        exSliceHeight s = some (s.mbh.toNat / (s.cfg[(23 : Fin 32)].extractLsb' 7 3).toNat))
    ∧ (cfgCodec s = .wmv2 ↔ s.cfg[(0 : Fin 32)].getLsbD 0 = true)
    ∧ cfgFrameType s = (s.cfg[(1 : Fin 32)].extractLsb' 0 3).toNat
    ∧ cfgPquant s = (s.cfg[(2 : Fin 32)].extractLsb' 0 5).toNat
    ∧ cfgHalfqp s = s.cfg[(3 : Fin 32)].getLsbD 0
    ∧ cfgQmode s = s.cfg[(4 : Fin 32)].getLsbD 0
    ∧ cfgOverlap s = s.cfg[(5 : Fin 32)].getLsbD 0
    ∧ cfgLoopfilter s = s.cfg[(6 : Fin 32)].getLsbD 0
    ∧ cfgRangered s = s.cfg[(7 : Fin 32)].getLsbD 0
    ∧ cfgRangeredfrm s = s.cfg[(8 : Fin 32)].getLsbD 0
    ∧ cfgDquant s = (s.cfg[(9 : Fin 32)].extractLsb' 0 2).toNat
    ∧ cfgFastuvmc s = s.cfg[(15 : Fin 32)].getLsbD 0
    ∧ cfgBfracNum s = (s.cfg[(17 : Fin 32)].extractLsb' 0 8).toNat
    ∧ cfgBfracDen s = (s.cfg[(18 : Fin 32)].extractLsb' 0 8).toNat
    ∧ cfgW2Skipped s = s.cfg[(20 : Fin 32)].getLsbD 0

/-! ## The bit reader -/

/-- `BR_INIT`, `BR_SKIP`, `BR_BITS_LEFT`, `BR_IS_EMPTY` and `BR_NEED` (R133, R138 to R141). That `BR_LEN` keeps
32 bits of `8 * PAYLOAD_LEN` is the model's reading of R11 and R39, log entry 12. -/
def Obligations.ReaderControl : Prop :=
  ∀ (s : State) (n : BitVec 24), s.err = false →
    exec (.brInit n) s
        = .next { s with brLen := 8#32 * s.payloadLen, brPos := n.setWidth 32 }
    ∧ exec (.brSkip n) s = .next { s with brPos := advanced s n.toNat }
    ∧ exec .brBitsLeft s
        = .next { s with res0 := if s.brPos < s.brLen then s.brLen - s.brPos else 0 }
    ∧ exec .brIsEmpty s = .next { s with res0 := if s.brLen ≤ s.brPos then 1 else 0 }
    ∧ (s.brPos.toNat + n.toNat ≤ s.brLen.toNat ∨ n = 0 → exec (.brNeed n) s = .next s)
    ∧ (s.brLen.toNat < s.brPos.toNat + n.toNat → n ≠ 0 →
        exec (.brNeed n) s = .next (withError 5 s))

/-- `BR_READ_BITS`, `BR_PEEK` and `BR_READ_BIT` give the next bits of the payload, the first one most
significant, 0 past the end, and move the cursor by the full count (R131, R134, R135, R137). -/
def Obligations.ReadBits : Prop :=
  ∀ (s : State) (n : BitVec 6), s.err = false →
    (n.toNat ≤ 32 → ∃ v : Word,
      (∀ j, j < 32 → v.getLsbD j
          = (decide (j < n.toNat) && decide (payloadBit s (s.brPos.toNat + (n.toNat - 1 - j)) = 1)))
      ∧ exec (.brReadBits n) s = .next { s with res0 := v, brPos := advanced s n.toNat }
      ∧ exec (.brPeek n) s = .next { s with res0 := v })
    ∧ exec .brReadBit s
        = .next { s with
            res0 := if payloadBit s s.brPos.toNat = 1 then 1 else 0, brPos := advanced s 1 }
    ∧ (32 < n.toNat → exec (.brReadBits n) s = .next (withError 6 s)
        ∧ exec (.brPeek n) s = .next (withError 6 s))

/-- `BR_READ_SIGNED` gives the next `n` bits as a two's-complement number: from bit `n - 1` up every bit
is the first bit read (R136). -/
def Obligations.ReadSigned : Prop :=
  ∀ (s : State) (n : BitVec 6), s.err = false →
    (n.toNat ≤ 32 → ∃ v : Word,
      (∀ j, j < 32 → v.getLsbD j
          = (decide (n ≠ 0)
              && decide (payloadBit s (s.brPos.toNat + (n.toNat - 1 - j)) = 1)))
      ∧ exec (.brReadSigned n) s = .next { s with res0 := v, brPos := advanced s n.toNat })
    ∧ (32 < n.toNat → exec (.brReadSigned n) s = .next (withError 6 s))

/-! ## Variable-length codes -/

/-- Round trip (R157): a payload whose next bits are the code of an entry of a table decodes to that
entry's symbol and moves the cursor by the code's length, whatever follows. `RES0` is packed as R154
says. (The cursor saturates at `2^32 - 1`, R131.) -/
def Obligations.VlcRoundTrip : Prop :=
  ∀ (s : State) (t : BitVec 8), s.err = false →
    (∀ es e, vlcTable s.params t = some (.scalar es) → CodeAt s es s.brPos.toNat e →
      exec (.vlcDecode t) s
        = .next { s with
            res0 := BitVec.ofNat 32 e.sym, res1 := BitVec.ofNat 32 e.len, brPos := advanced s e.len })
    ∧ (∀ es e run level last, vlcTable s.params t = some (.ac es) → CodeAt s es s.brPos.toNat e →
      e.sym = .rle run level last →
      exec (.vlcDecode t) s
        = .next { s with
            res0 := BitVec.ofNat 32 ((if last then 65536 else 0) + 256 * run + level)
            res1 := BitVec.ofNat 32 e.len, brPos := advanced s e.len })
    ∧ ∀ es e, vlcTable s.params t = some (.ac es) → CodeAt s es s.brPos.toNat e → e.sym = .esc →
      exec (.vlcDecode t) s
        = .next { s with
            res0 := 0xFFFFFFFF, res1 := BitVec.ofNat 32 e.len, brPos := advanced s e.len }

/-- A decode fails only when the next bits begin with no code of the table; it then raises
`E_VLC_INVALID` and the cursor is not advanced (R153, R154). -/
def Obligations.VlcNoMatch : Prop :=
  ∀ (s : State) (t : BitVec 8), s.err = false →
    (∀ es, vlcTable s.params t = some (.scalar es) → NoCodeAt s es s.brPos.toNat →
      exec (.vlcDecode t) s = .next (withError 1 s))
    ∧ (∀ es, vlcTable s.params t = some (.ac es) → NoCodeAt s es s.brPos.toNat →
      exec (.vlcDecode t) s = .next (withError 1 s))
    ∧ (vlcTable s.params t = none → exec (.vlcDecode t) s = .next (withError 6 s))

/-- `VLC_MAXLEVEL` and `VLC_MAXRUN` give the largest level (run) the table codes with the given run
(level) and last flag, 0 when it codes none; a table that is not of kind AC raises `E_BAD_CMD` (R152, R155,
R156). -/
def Obligations.EscapeTables : Prop :=
  ∀ (s : State) (t : BitVec 8), s.err = false →
    (acTable s.params t = none → ∀ (last : Bool) (run : BitVec 6) (level : BitVec 8),
      exec (.vlcMaxlevel t last run) s = .next (withError 6 s)
        ∧ exec (.vlcMaxrun t last level) s = .next (withError 6 s))
    ∧ ∀ es : List (VlcEntry AcSym), acTable s.params t = some es →
    (∀ (last : Bool) (run : BitVec 6), ∃ m : Nat,
      exec (.vlcMaxlevel t last run) s = .next { s with res0 := BitVec.ofNat 32 m }
      ∧ m ≤ 255
      ∧ (∀ e ∈ es, ∀ l, e.sym = .rle run.toNat l last → l ≤ m)
      ∧ ((∃ e ∈ es, e.sym = .rle run.toNat m last)
          ∨ (m = 0 ∧ ∀ e ∈ es, ∀ l, e.sym ≠ .rle run.toNat l last)))
    ∧ ∀ (last : Bool) (level : BitVec 8), ∃ m : Nat,
      exec (.vlcMaxrun t last level) s = .next { s with res0 := BitVec.ofNat 32 m }
      ∧ m ≤ 63
      ∧ (∀ e ∈ es, ∀ r, e.sym = .rle r level.toNat last → r ≤ m)
      ∧ ((∃ e ∈ es, e.sym = .rle m level.toNat last)
          ∨ (m = 0 ∧ ∀ e ∈ es, ∀ r, e.sym ≠ .rle r level.toNat last))

/-! ## DC differentials and AC symbols -/

/-- `DC_VC1` (R173 to R175): a size, then that many raw bits in the one's-complement-offset convention. -/
def Obligations.DcVc1 : Prop :=
  ∀ (s : State) (t : BitVec 8) (es : List (VlcEntry Nat)), s.err = false →
    scalarTable s.params t = some es →
    (s.brLen ≤ s.brPos → exec (.dcVc1 t) s = .next (withError 4 s))
    ∧ (s.brPos < s.brLen → NoCodeAt s es s.brPos.toNat → exec (.dcVc1 t) s = .next (withError 1 s))
    ∧ ∀ e, s.brPos < s.brLen → CodeAt s es s.brPos.toNat e →
      (31 < e.sym → exec (.dcVc1 t) s = .next (withError 3 { s with brPos := advanced s e.len }))
      ∧ (e.sym ≤ 31 →
        let q := s.brPos.toNat + e.len
        let raw : Int := bitsFrom s q e.sym
        let v : Word := BitVec.ofInt 32
          (if e.sym = 0 then 0 else if payloadBit s q = 1 then raw else raw - 2 ^ e.sym + 1)
        exec (.dcVc1 t) s
          = .next { s with brPos := advanced s (e.len + e.sym), dcdiff := v, res0 := v })

/-- `DC_WMV2` (R173, R176): a magnitude with a sign bit, 119 standing for an 8-bit absolute value. -/
def Obligations.DcWmv2 : Prop :=
  ∀ (s : State) (t : BitVec 8) (es : List (VlcEntry Nat)), s.err = false →
    scalarTable s.params t = some es →
    (s.brLen ≤ s.brPos → exec (.dcWmv2 t) s = .next (withError 4 s))
    ∧ (s.brPos < s.brLen → NoCodeAt s es s.brPos.toNat → exec (.dcWmv2 t) s = .next (withError 1 s))
    ∧ ∀ e, s.brPos < s.brLen → CodeAt s es s.brPos.toNat e →
      let q := s.brPos.toNat + e.len
      (119 < e.sym → exec (.dcWmv2 t) s = .next (withError 3 { s with brPos := advanced s e.len }))
      ∧ (e.sym = 119 →
        let v : Word := BitVec.ofInt 32 (signAt s (q + 8) (bitsFrom s q 8))
        exec (.dcWmv2 t) s = .next { s with brPos := advanced s (e.len + 9), dcdiff := v, res0 := v })
      ∧ (0 < e.sym → e.sym < 119 →
        let v : Word := BitVec.ofInt 32 (signAt s q e.sym)
        exec (.dcWmv2 t) s = .next { s with brPos := advanced s (e.len + 1), dcdiff := v, res0 := v })
      ∧ (e.sym = 0 →
        exec (.dcWmv2 t) s = .next { s with brPos := advanced s e.len, dcdiff := 0, res0 := 0 })

/-- `AC_SYM_VC1` (R179, R180): a plain symbol with its sign bit, and the three escape modes with prefixes
0, 10 and 11. -/
def Obligations.AcSymVc1 : Prop :=
  ∀ (s : State) (t : BitVec 8) (es : List (VlcEntry AcSym)), s.err = false →
    acTable s.params t = some es →
    (s.brLen ≤ s.brPos → exec (.acSymVc1 t) s = .next (withError 4 s))
    ∧ (s.brPos < s.brLen → NoCodeAt s es s.brPos.toNat → exec (.acSymVc1 t) s = .next (withError 1 s))
    ∧ ∀ e, s.brPos < s.brLen → CodeAt s es s.brPos.toNat e →
      let q := s.brPos.toNat + e.len
      (∀ run mag last, e.sym = .rle run mag last →
        exec (.acSymVc1 t) s
          = .next (acSymDone { s with brPos := advanced s (e.len + 1) } run (signAt s q mag) last))
      ∧ (e.sym = .esc → payloadBit s q = 0 →
        OffsetEscape (exec (.acSymVc1 t) s) s es (e.len + 1) fun run base last =>
          (run, base + maxLevel es last run + 1))
      ∧ (e.sym = .esc → payloadBit s q = 1 → payloadBit s (q + 1) = 0 →
        OffsetEscape (exec (.acSymVc1 t) s) s es (e.len + 2) fun brun mag last =>
          (min (brun + maxRun es last mag + 1) 63, mag))
      ∧ (e.sym = .esc → payloadBit s q = 1 → payloadBit s (q + 1) = 1 →
        exec (.acSymVc1 t) s
          = .next (acSymDone { s with brPos := advanced s (e.len + 18) } (bitsFrom s (q + 3) 6)
              (signAt s (q + 17) (bitsFrom s (q + 9) 8)) (decide (payloadBit s (q + 2) = 1))))

/-- `AC_SYM_WMV2` (R181, R182): a plain symbol with its sign bit, and the three escapes with prefixes 1, 01
and 00; the first escape 3 of a picture derives the two field widths, a later one uses them. -/
def Obligations.AcSymWmv2 : Prop :=
  ∀ (s : State) (t : BitVec 8) (es : List (VlcEntry AcSym)), s.err = false →
    acTable s.params t = some es →
    (s.brLen ≤ s.brPos → exec (.acSymWmv2 t) s = .next (withError 4 s))
    ∧ (s.brPos < s.brLen → NoCodeAt s es s.brPos.toNat → exec (.acSymWmv2 t) s = .next (withError 1 s))
    ∧ ∀ e, s.brPos < s.brLen → CodeAt s es s.brPos.toNat e →
      let q := s.brPos.toNat + e.len
      (∀ run mag last, e.sym = .rle run mag last →
        exec (.acSymWmv2 t) s
          = .next (acSymDone { s with brPos := advanced s (e.len + 1) } run (signAt s q mag) last))
      ∧ (e.sym = .esc → payloadBit s q = 1 →
        OffsetEscape (exec (.acSymWmv2 t) s) s es (e.len + 1) fun run base last =>
          (run, base + maxLevel es last run + 1))
      ∧ (e.sym = .esc → payloadBit s q = 0 → payloadBit s (q + 1) = 1 →
        OffsetEscape (exec (.acSymWmv2 t) s) s es (e.len + 2) fun brun mag last =>
          (min (brun + maxRun es last mag + 1) 63, mag))
      ∧ (e.sym = .esc → payloadBit s q = 0 → payloadBit s (q + 1) = 0 → s.esc3LL ≠ 0 →
        let rl := s.esc3RL.toNat
        let ll := s.esc3LL.toNat
        exec (.acSymWmv2 t) s
          = .next (acSymDone { s with brPos := advanced s (e.len + 4 + rl + ll) } (bitsFrom s (q + 3) rl)
              (signAt s (q + 3 + rl) (bitsFrom s (q + 4 + rl) ll)) (decide (payloadBit s (q + 2) = 1))))
      ∧ ∀ ll rl used, e.sym = .esc → payloadBit s q = 0 → payloadBit s (q + 1) = 0 → s.esc3LL = 0 →
        LengthsAt s (q + 3) ll rl used →
        exec (.acSymWmv2 t) s
          = .next (acSymDone
              { s with
                brPos := advanced s (e.len + 4 + used + rl + ll)
                esc3LL := BitVec.ofNat 4 ll, esc3RL := BitVec.ofNat 4 rl }
              (bitsFrom s (q + 3 + used) rl)
              (signAt s (q + 3 + used + rl) (bitsFrom s (q + 4 + used + rl) ll))
              (decide (payloadBit s (q + 2) = 1)))

/-- Every run that an AC symbol decode returns is in 0..63 (R185); the escape-3 run width is at most 6, which
every step keeps (`StepKeepsRangeInv`). -/
def Obligations.RunBound : Prop :=
  ∀ (s u : State) (t : BitVec 8) (es : List (VlcEntry AcSym)) (r : RunLevel),
    acTable s.params t = some es → s.esc3RL.toNat ≤ 6 →
    (Sys2Proof.Machine.acSymVc1 es s = .ok r u → r.run ≤ 63)
      ∧ (Sys2Proof.Machine.acSymWmv2 es s = .ok r u → r.run ≤ 63)

/-! ## Whole blocks and the coefficient buffer -/

/-- `AC_BLOCK_VC1` and `AC_BLOCK_WMV2` (R171, R172, R183, R184): symbols are read and placed one after
another until one has `last` set, `RES0` the last index and `RES1` the number of symbols, at most the length
of the scan; or until one cannot be read or placed, which raises its error with the effects made so far. One
of the two always happens. -/
def Obligations.AcBlock : Prop :=
  ∀ (s : State) (t : BitVec 8) (sc : BitVec 4) (intra : Bool) (es : List (VlcEntry AcSym)) (scan : List Nat),
    s.err = false → acTable s.params t = some es → scanTable s.params sc = some scan →
    let start : Int := if intra = true then 0 else -1
    ∀ (i : Instr) (sym : Engine RunLevel),
      (i = .acBlockVc1 t sc intra ∧ sym = Sys2Proof.Machine.acSymVc1 es)
        ∨ (i = .acBlockWmv2 t sc intra ∧ sym = Sys2Proof.Machine.acSymWmv2 es) →
      (∀ u idx n, BlockRun sym scan s start 0 u idx n →
        exec i s = .next { u with res0 := BitVec.ofInt 32 idx, res1 := BitVec.ofNat 32 n }
          ∧ idx < scan.length ∧ n ≤ scan.length)
      ∧ (∀ e u, BlockStop sym scan s start e u → exec i s = .next (withError e.code u))
      ∧ ((∃ u idx n, BlockRun sym scan s start 0 u idx n) ∨ ∃ e u, BlockStop sym scan s start e u)

/-- A block of one plain symbol with `last` set: its level is placed at the scan position `run + 1` after the
start (0 in an intra block, -1 in an inter block), or raises `E_COEF_OVERFLOW` at or past the scan's length
with no coefficient written (R171, R172, R183, R184). -/
def Obligations.AcBlockOneSymbol : Prop :=
  ∀ (s : State) (t : BitVec 8) (sc : BitVec 4) (intra : Bool) (es : List (VlcEntry AcSym)) (scan : List Nat)
    (e : VlcEntry AcSym) (run mag : Nat), s.err = false → acTable s.params t = some es →
    scanTable s.params sc = some scan → s.brPos < s.brLen → CodeAt s es s.brPos.toNat e →
    e.sym = .rle run mag true →
    let k := if intra = true then run + 1 else run
    let v : Word := BitVec.ofInt 32 (signAt s (s.brPos.toNat + e.len) mag)
    ∀ i, i = .acBlockVc1 t sc intra ∨ i = .acBlockWmv2 t sc intra →
      (∀ h : k < scan.length,
        exec i s = .next { s with
          brPos := advanced s (e.len + 1), coef := s.coef.setIfInBounds scan[k] v, last := true
          res0 := BitVec.ofNat 32 k, res1 := 1 })
      ∧ (scan.length ≤ k → exec i s = .next (withError 2 { s with brPos := advanced s (e.len + 1) }))

/-- `CLR_COEF`, `COEF_WR` (R177, R178) and the three WMV2 transforms, each the parameter function of its
shape applied to `COEF` (R12, R228). That its inputs are the signed values and its results are stored in 32
bits is the model's reading of R11 and R12, log entry 6. -/
def Obligations.CoefficientBuffer : Prop :=
  ∀ s : State, s.err = false →
    (∃ w : Vector Word 64, exec .clrCoef s = .next { s with coef := w } ∧ ∀ k : Fin 64, w[k] = 0)
    ∧ (∀ (i : BitVec 6) (v : BitVec 16), ∃ w : Vector Word 64, exec (.coefWr i v) s = .next { s with coef := w }
        ∧ ∀ k : Fin 64, w[k] = if k.val = i.toNat then v.signExtend 32 else s.coef[k])
    ∧ ∀ (i : Instr) (shape : WmvShape),
      (i = .widct8x8 ∧ shape = .s8x8) ∨ (i = .widct8x4 ∧ shape = .s8x4)
        ∨ (i = .widct4x8 ∧ shape = .s4x8) →
      ∃ w : Vector Word 64, exec i s = .next { s with coef := w }
        ∧ ∀ k : Fin 64, w[k] = BitVec.ofInt 32 (Config.wmv2Idct shape (s.coef.map BitVec.toInt))[k]

/-- The commands that load or read registers: `NOP`, `WRCFG`, `RDCFG`, `SET_MB`, `SET_MQUANT`, `SET_MV`,
`MVSTORE` (R200, R250, R261, R262, R350, R351, R353). That `SET_MV` runs without a picture size too is the
model's choice between R261 and R412, log entry 8. -/
def Obligations.RegisterCommands : Prop :=
  ∀ s : State,
    exec .nop s = .next s
    ∧ (∀ (i : BitVec 5) (v : BitVec 16), ∃ w : Vector (BitVec 16) 32, exec (.wrcfg i v) s = .next { s with cfg := w }
        ∧ ∀ k : Fin 32, w[k] = if k.val = i.toNat then v else s.cfg[k])
    ∧ (∀ (i : BitVec 5) (k : Fin 32), k.val = i.toNat →
        exec (.rdcfg i) s = .next { s with res0 := (s.cfg[k]).setWidth 32 })
    ∧ (s.err = false →
      (∀ x y : BitVec 12, x < s.mbw → y < s.mbh →
        exec (.setMb x y) s = .next { s with mbx := x, mby := y, mqValid := false })
      ∧ (∀ q : BitVec 5, q ≠ 0 → exec (.setMquant q) s = .next { s with mquant := q, mqValid := true })
      ∧ (∀ x y : BitVec 11,
        exec (.setMv false false x y) s = .next { s with mvf := ⟨x.signExtend 32, y.signExtend 32⟩ }
        ∧ exec (.setMv true false x y) s = .next { s with mvbk := ⟨x.signExtend 32, y.signExtend 32⟩ }
        ∧ exec (.setMv false true x y) s
            = .next { s with mvf := ⟨s.pmv.x + x.signExtend 32, s.pmv.y + y.signExtend 32⟩ }
        ∧ exec (.setMv true true x y) s
            = .next { s with mvbk := ⟨s.pmv.x + x.signExtend 32, s.pmv.y + y.signExtend 32⟩ })
      ∧ ∀ skipped, s.mbw ≠ 0 → ∃ g, exec (.mvstore skipped) s = .next { s with mvbuf := g }
          ∧ s.mvbuf.SetAt (mbKey s.mbx.toNat s.mby.toNat) ⟨s.mvf.x, s.mvf.y, skipped⟩ g)

/-! ## Inverse quantization -/

/-- `DQ_VC1` (R201 to R203): the macroblock's quantizer while the override is in effect, else the picture's;
AC levels by the uniform or the non-uniform formula, clamped; an intra DC times its step, not clamped. -/
def Obligations.DqVc1 : Prop :=
  ∀ (s : State) (b : BitVec 3) (intra : Bool), s.err = false → b.toNat ≤ 5 →
    let override : Prop := cfgDquant s ≠ 0 ∧ s.mqValid = true
    ∃ (q : Nat) (half : Int) (w : Vector Word 64),
      (override → q = s.mquant.toNat ∧ half = 0)
      ∧ (¬override → q = cfgPquant s ∧ half = if cfgHalfqp s = true then (q : Int) else 0)
      ∧ exec (.dqVc1 b intra) s = .next { s with coef := w }
      ∧ ∀ k : Fin 64,
        let l := (s.coef[k]).toInt
        (intra = true → k.val = 0 →
          w[k] = BitVec.ofInt 32 (l * stepAt s.params.raw.vc1DcStep q))
        ∧ (intra = false ∨ k.val ≠ 0 →
          (w[k]).toInt = min 2047 (max (-2048) (l.sign *
            (if cfgQmode s = false then 2 * q * |l| + q + half
             else stepAt s.params.raw.nuStep q * |l| + q))))

/-- `DQ_WMV2` (R204, R205): twice the picture quantizer times the level plus `(q - 1) | 1` with the level's
sign, a zero level staying 0; an intra DC times the luma or chroma scale. The addend -1 at quantizer
0 is the model's reading, log entry 27. -/
def Obligations.DqWmv2 : Prop :=
  ∀ (s : State) (b : BitVec 3) (intra : Bool), s.err = false → b.toNat ≤ 5 →
    let q := cfgPquant s
    let qadd : Int := if q = 0 then -1 else ((q - 1 ||| 1 : Nat) : Int)
    let scale := if b.toNat < 4 then stepAt s.params.raw.wmv2DcScaleY q
      else stepAt s.params.raw.wmv2DcScaleC q
    ∃ w : Vector Word 64, exec (.dqWmv2 b intra) s = .next { s with coef := w }
      ∧ ∀ k : Fin 64,
        let l := (s.coef[k]).toInt
        (intra = true → k.val = 0 → w[k] = BitVec.ofInt 32 (l * scale))
        ∧ (intra = false ∨ k.val ≠ 0 →
          (l = 0 → w[k] = 0)
          ∧ (0 < l → w[k] = BitVec.ofInt 32 (2 * q * l + qadd))
          ∧ (l < 0 → w[k] = BitVec.ofInt 32 (2 * q * l - qadd)))

/-! ## Inverse transforms and block writes -/

/-- The seven VC-1 transforms (R220 to R227): every region of `COEF` is transformed from the coefficients it
held before the command, with the entries of `T8` and `T4` as R220 writes them, a row pass stored in 32
bits, then a column pass with `(x + 64) >> 7`. (What is stored in 32 bits and what is exact is the model's
reading of R11, log entry 11.) -/
def Obligations.Transforms : Prop :=
  let t8 : List (List Int) :=
    [[12, 12, 12, 12, 12, 12, 12, 12], [16, 15, 9, 4, -4, -9, -15, -16], [16, 6, -6, -16, -16, -6, 6, 16],
      [15, -4, -16, -9, 9, 16, 4, -15], [12, -12, -12, 12, 12, -12, -12, 12], [9, -16, 4, 15, -15, -4, 16, -9],
      [6, -16, 16, -6, -6, 16, -16, 6], [4, -9, 15, -16, 16, -15, 9, -4]]
  let t4 : List (List Int) := [[17, 17, 17, 17], [22, 10, -10, -22], [17, -17, -17, 17], [10, -22, 22, -10]]
  let kernel (size k n : Nat) : Int := ((if size = 8 then t8 else t4).getD k []).getD n 0
  ∀ (s : State) (i : Instr) (wd ht : Nat), s.err = false →
    (i, wd, ht) ∈ [(Instr.idct8x8, 8, 8), (.idct8x4A, 8, 4), (.idct8x4B, 8, 4), (.idct4x8A, 4, 8),
      (.idct4x8B, 4, 8), (.idct4x4A, 4, 4), (.idct4x4B, 4, 4)] →
    ∃ w : Vector Word 64, exec i s = .next { s with coef := w }
      ∧ ∀ k : Fin 64,
        let r0 := k.val / 8 / ht * ht
        let c0 := k.val % 8 / wd * wd
        let m := k.val / 8 % ht
        let n := k.val % 8 % wd
        let row (r : Nat) : Int := (BitVec.ofInt 32
          (∑ j ∈ Finset.range wd, kernel wd j n * coefAt s.coef (8 * (r0 + r) + c0 + j))).toInt
        w[k] = BitVec.ofInt 32 ((∑ j ∈ Finset.range ht, kernel ht j m * row j + 64) / 2 ^ 7)

/-- A DC-only block of a DC within 2^26 becomes uniform over its first region and 0 elsewhere (R232). Outside
-2048..2047 the value rests on the column sum being exact before its shift, the model's reading of R11, log
entry 11. -/
def Obligations.DcOnlyBlocks : Prop :=
  ∀ (s : State) (d : Int), s.err = false → -2 ^ 26 ≤ d → d ≤ 2 ^ 26 → s.coef[(0 : Fin 64)] = BitVec.ofInt 32 d →
    (∀ k : Fin 64, k.val ≠ 0 → s.coef[k] = 0) →
    ∀ (i : Instr) (wd ht : Nat) (gain : Int),
      (i, wd, ht, gain) ∈ [(Instr.idct8x8, 8, 8, 144), (.idct8x4A, 8, 4, 204), (.idct8x4B, 8, 4, 204),
        (.idct4x8A, 4, 8, 204), (.idct4x8B, 4, 8, 204), (.idct4x4A, 4, 4, 289), (.idct4x4B, 4, 4, 289)] →
      ∃ w : Vector Word 64, exec i s = .next { s with coef := w }
        ∧ ∀ k : Fin 64, (w[k]).toInt
            = if k.val / 8 < ht ∧ k.val % 8 < wd then (gain * d + 64) / 2 ^ 7 else 0

/-- `BLK_PUT` and `BLK_ADD` (R229 to R231, R251): the 64 samples of the block become the coefficients plus
the codec's bias, or the old samples plus the coefficients, clamped to 8 bits; every other sample of the frame
stays; the macroblock is marked reconstructed. -/
def Obligations.BlockWrites : Prop :=
  ∀ (s : State) (f : Frame) (b : BitVec 3), OpenWith s f → b.toNat ≤ 5 →
    ∃ (put add : Frame) (g : Grid Bool),
      exec (.blkPut b) s = .next { s with cur := some put, recon := g }
      ∧ exec (.blkAdd b) s = .next { s with cur := some add, recon := g }
      ∧ s.recon.SetAt (mbKey s.mbx.toNat s.mby.toNat) true g
      ∧ put.wf ∧ put.mbw = f.mbw ∧ put.mbh = f.mbh ∧ add.wf ∧ add.mbw = f.mbw ∧ add.mbh = f.mbh
      ∧ ∀ (p : PlaneId) (x y : Nat), x < f.width p → y < f.height p →
        let o := originOf s.mbx.toNat s.mby.toNat b.toNat
        let inside : Prop := p = o.1 ∧ o.2.1 ≤ x ∧ x < o.2.1 + 8 ∧ o.2.2 ≤ y ∧ y < o.2.2 + 8
        let v := coefAt s.coef (8 * (y - o.2.2) + (x - o.2.1))
        let bias := match s.fc with
          | .vc1 => s.params.raw.putBiasVc1
          | .wmv2 => s.params.raw.putBiasWmv2
        (inside → ((put.pix p x y).toNat : Int) = min 255 (max 0 (v + bias))
          ∧ ((add.pix p x y).toNat : Int) = min 255 (max 0 ((f.pix p x y).toNat + v)))
        ∧ (¬inside → put.pix p x y = f.pix p x y ∧ add.pix p x y = f.pix p x y)

/-- A command that writes pixels does nothing in a suppressed frame (R342), raises `E_SEQ` with no frame open
or no `CUR` (R229) and, for the MC commands, with no working reference (R293, R295); the predictor commands
raise `E_SEQ` without a picture size (45_prediction.md). Two readings are the model's: R342 over R229 in a
suppressed frame without `CUR` (log entry 18), and `E_SEQ` in an open frame without `CUR`, a state no run
reaches (log entry 9). -/
def Obligations.Preconditions : Prop :=
  ∀ (i : Instr) (s : State), s.err = false → i.wf = true →
    (∀ k, writesPixels i = true → s.fstate = .suppressed k → exec i s = .next s)
    ∧ (writesPixels i = true → s.fstate = .idle → exec i s = .next (withError 7 s))
    ∧ (writesPixels i = true → s.fstate = .opened → s.cur = none → exec i s = .next (withError 7 s))
    ∧ (i = .mcBilin false ∨ (∃ h, i = .mcMspel h) → s.fstate = .opened → s.wref0 = none →
        exec i s = .next (withError 7 s))
    ∧ (i = .mcBilin true → s.fstate = .opened → s.wref1 = none → exec i s = .next (withError 7 s))
    ∧ (needsPicture i = true → s.mbw = 0 → exec i s = .next (withError 7 s))

/-! ## Prediction -/

/-- The neighbours of the six blocks of the current macroblock (R251, R252), and: distinct entries of the
predictor buffers stand at distinct keys, `cacheKey` (so its prefixes `blockKey` and `mbKey` too) and `gridKey`,
which keys `CBPB` (R50). The keys are the model's own choice, log entry 25. -/
def Obligations.Neighbours : Prop :=
  (∀ s : State,
    let x := s.mbx.toNat
    let y := s.mby.toNat
    leftOf s 0 = (if x = 0 then none else some ⟨x - 1, y, 1⟩)
    ∧ leftOf s 1 = some ⟨x, y, 0⟩
    ∧ leftOf s 2 = (if x = 0 then none else some ⟨x - 1, y, 3⟩)
    ∧ leftOf s 3 = some ⟨x, y, 2⟩
    ∧ topOf s 0 = (if y = 0 then none else some ⟨x, y - 1, 2⟩)
    ∧ topOf s 1 = (if y = 0 then none else some ⟨x, y - 1, 3⟩)
    ∧ topOf s 2 = some ⟨x, y, 0⟩
    ∧ topOf s 3 = some ⟨x, y, 1⟩
    ∧ topLeftOf s 0 = (if x = 0 ∨ y = 0 then none else some ⟨x - 1, y - 1, 3⟩)
    ∧ topLeftOf s 1 = (if y = 0 then none else some ⟨x, y - 1, 2⟩)
    ∧ topLeftOf s 2 = (if x = 0 then none else some ⟨x - 1, y, 1⟩)
    ∧ topLeftOf s 3 = some ⟨x, y, 0⟩
    ∧ ∀ b, b = 4 ∨ b = 5 →
      leftOf s b = (if x = 0 then none else some ⟨x - 1, y, b⟩)
      ∧ topOf s b = (if y = 0 then none else some ⟨x, y - 1, b⟩)
      ∧ topLeftOf s b = (if x = 0 ∨ y = 0 then none else some ⟨x - 1, y - 1, b⟩))
    ∧ (∀ (x y x' y' : BitVec 12) (b b' i i' : Nat), b ≤ 5 → b' ≤ 5 → i ≤ 6 → i' ≤ 6 →
      cacheKey x.toNat y.toNat b i = cacheKey x'.toNat y'.toNat b' i' →
      x = x' ∧ y = y' ∧ b = b' ∧ i = i')
    ∧ ∀ x y x' y' : Nat, x < 2 * 4095 → y < 2 * 4095 → x' < 2 * 4095 → y' < 2 * 4095 →
      gridKey x y = gridKey x' y' → x = x' ∧ y = y'

/-- `DCPRED_VC1` and `DCPRED_WMV2` (R253 to R255): the neighbours' stored DCs, or the sentinel outside the
picture, are divided with rounding by the block's step; VC-1 predicts from the top when
`|T - C| <= |L - C|`, WMV2 when `|A - B| < |B - C|`. (`rdiv` by a step below 1, which only entry 0 of a table
can be, is a free value, log entry 4.) -/
def Obligations.DcPrediction : Prop :=
  ∀ (s : State) (b : BitVec 3), s.err = false → b.toNat ≤ 5 → s.mbw ≠ 0 →
    let level (sentinel : Word) (step : Int) (n : Option Slot) : Int :=
      let v := (match n with
        | some k => s.dcb.read (blockKey k.mx k.my k.b)
        | none => sentinel).toInt
      if 1 ≤ step then Int.tdiv (v + step / 2) step else Config.rdivUnstated v step
    let p := s.params.raw
    let q := if cfgDquant s ≠ 0 ∧ s.mqValid = true then s.mquant.toNat else cfgPquant s
    let vc1 := level p.dcSentinelVc1 (stepAt p.vc1DcStep q)
    let wmv2 := level p.dcSentinelWmv2
      (if b.toNat < 4 then stepAt p.wmv2DcScaleY (cfgPquant s) else stepAt p.wmv2DcScaleC (cfgPquant s))
    let done (i : Instr) (top : Prop) (t l : Int) : Prop :=
      ∃ (w : Vector Word 64) (pred : Int) (dir : Bool),
        (top → pred = t ∧ dir = false) ∧ (¬top → pred = l ∧ dir = true)
        ∧ exec i s = .next { s with coef := w, pdir := dir, res0 := BitVec.ofInt 32 pred }
        ∧ w[(0 : Fin 64)] = BitVec.ofInt 32 (pred + s.dcdiff.toInt)
        ∧ ∀ k : Fin 64, k.val ≠ 0 → w[k] = s.coef[k]
    let left := leftOf s b.toNat
    let above := topOf s b.toNat
    let corner := topLeftOf s b.toNat
    done (.dcpredVc1 b) (|vc1 above - vc1 corner| ≤ |vc1 left - vc1 corner|) (vc1 above) (vc1 left)
    ∧ done (.dcpredWmv2 b) (|wmv2 left - wmv2 corner| < |wmv2 corner - wmv2 above|) (wmv2 above)
      (wmv2 left)

/-- `PRED_STORE` stores the block's DC, first row and first column and nothing else; it raises `E_SEQ` without
a picture size (R256). -/
def Obligations.PredStore : Prop :=
  ∀ (s : State) (b : BitVec 3), s.err = false → b.toNat ≤ 5 →
    (s.mbw = 0 → exec (.predStore b) s = .next (withError 7 s))
    ∧ (s.mbw ≠ 0 →
    let x := s.mbx.toNat
    let y := s.mby.toNat
    ∃ d r c : Grid Word, exec (.predStore b) s = .next { s with dcb := d, acrow := r, accol := c }
      ∧ s.dcb.SetAt (blockKey x y b.toNat) s.coef[(0 : Fin 64)] d
      ∧ (∀ i : Fin 7, r.read (cacheKey x y b.toNat i) = s.coef[1 + i.val]
          ∧ c.read (cacheKey x y b.toNat i) = s.coef[8 * (1 + i.val)])
      ∧ ∀ k, (∀ i : Fin 7, k ≠ cacheKey x y b.toNat i) →
          r.read k = s.acrow.read k ∧ c.read k = s.accol.read k)

/-- `ACPRED` adds the left neighbour's cached row to coefficients 1..7, or the top neighbour's cached column
to coefficients 8, 16, ..., 56, as `PDIR` says; a neighbour outside adds nothing; without a picture size it
raises `E_SEQ` (R257). -/
def Obligations.AcPrediction : Prop :=
  ∀ (s : State) (b : BitVec 3), s.err = false → b.toNat ≤ 5 →
    (s.mbw = 0 → exec (.acpred b) s = .next (withError 7 s))
    ∧ (s.mbw ≠ 0 →
    ∃ w : Vector Word 64, exec (.acpred b) s = .next { s with coef := w }
      ∧ (s.pdir = true →
        (∀ i : Fin 7, w[1 + i.val] = s.coef[1 + i.val] + match leftOf s b.toNat with
          | some n => s.acrow.read (cacheKey n.mx n.my n.b i)
          | none => 0)
        ∧ ∀ k : Fin 64, k.val = 0 ∨ 8 ≤ k.val → w[k] = s.coef[k])
      ∧ (s.pdir = false →
        (∀ i : Fin 7, w[8 * (1 + i.val)] = s.coef[8 * (1 + i.val)] + match topOf s b.toNat with
          | some n => s.accol.read (cacheKey n.mx n.my n.b i)
          | none => 0)
        ∧ ∀ k : Fin 64, k.val = 0 ∨ k.val % 8 ≠ 0 → w[k] = s.coef[k]))

/-- `CBPPRED` corrects the coded bit of a luma block by the left bit when the top-left and top bits agree,
else by the top bit, and stores it; without a picture size it raises `E_SEQ` (R258). -/
def Obligations.CbpPrediction : Prop :=
  ∀ (s : State) (b : BitVec 2) (raw : Bool), s.err = false →
    (s.mbw = 0 → exec (.cbppred b raw) s = .next (withError 7 s))
    ∧ (s.mbw ≠ 0 →
    let x := 2 * s.mbx.toNat + b.toNat % 2
    let y := 2 * s.mby.toNat + b.toNat / 2
    let left := decide (x ≠ 0) && s.cbpb.read (gridKey (x - 1) y)
    let corner := decide (x ≠ 0) && decide (y ≠ 0) && s.cbpb.read (gridKey (x - 1) (y - 1))
    let above := decide (y ≠ 0) && s.cbpb.read (gridKey x (y - 1))
    let coded := xor raw (if corner = above then left else above)
    ∃ g : Grid Bool,
      exec (.cbppred b raw) s = .next { s with cbpb := g, res0 := if coded = true then 1 else 0 }
      ∧ s.cbpb.SetAt (gridKey x y) coded g)

/-- `MVPRED` gives per component the median of the left, the top and the top-right (in the last column: the
top-left) macroblock's vector, a macroblock outside the picture or skipped counting as (0, 0); without a
picture size it raises `E_SEQ` (R259, R260). The current macroblock lies in the picture, as every step keeps it
(`StepKeepsRangeInv`). -/
def Obligations.MvPrediction : Prop :=
  ∀ s : State, s.err = false →
    (s.mbw = 0 → exec .mvpred s = .next (withError 7 s))
    ∧ (s.mbx.toNat < s.mbw.toNat →
    let x := s.mbx.toNat
    let y := s.mby.toNat
    let stored (u v : Nat) : Mv :=
      let c := s.mvbuf.read (mbKey u v)
      if c.skipped = true then ⟨0, 0⟩ else ⟨c.x, c.y⟩
    let a := if x = 0 then ⟨0, 0⟩ else stored (x - 1) y
    let b := if y = 0 then ⟨0, 0⟩ else stored x (y - 1)
    let c := if y = 0 then ⟨0, 0⟩ else
      if x + 1 < s.mbw.toNat then stored (x + 1) (y - 1) else
        if x = 0 then ⟨0, 0⟩ else stored (x - 1) (y - 1)
    let median (u v w : Word) : Word :=
      BitVec.ofInt 32 (max (min u.toInt v.toInt) (min (max u.toInt v.toInt) w.toInt))
    let m : Mv := ⟨median a.x b.x c.x, median a.y b.y c.y⟩
    exec .mvpred s = .next { s with pmv := m, res0 := m.x, res1 := m.y })

/-! ## Motion compensation -/

/-- `MC_BILIN` (R290 to R294): the bilinear prediction from `WREF0` with `MVF`, or from `WREF1` with `MVBK`.
A reference sample is the one at the coordinates clamped to the plane. Without the working reference, or with
no frame open, the command raises `E_SEQ`. -/
def Obligations.McBilinear : Prop :=
  (∀ (s : State) (k : Bool), s.err = false →
    (s.fstate = .opened → (if k then s.wref1 else s.wref0) = none → exec (.mcBilin k) s = .next (withError 7 s))
    ∧ (s.fstate = .idle → exec (.mcBilin k) s = .next (withError 7 s)))
  ∧ (∀ (s : State) (f : Frame), s.err = false → s.fstate = .opened → s.cur.isSome = true →
    (s.wref0 = some f → ∃ m, exec (.mcBilin false) s = .next { s with mcbuf0 := m }
      ∧ Bilinear s f s.mvf m)
    ∧ (s.wref1 = some f → ∃ m, exec (.mcBilin true) s = .next { s with mcbuf1 := m }
      ∧ Bilinear s f s.mvbk m))
    ∧ ∀ (f : Frame) (p : PlaneId) (x y : Int), 0 < f.mbw.toNat → 0 < f.mbh.toNat →
      ∃ u v : Nat, u < f.width p ∧ v < f.height p ∧ refPix f p x y = (f.pix p u v).toNat
        ∧ (x < 0 → u = 0) ∧ (0 ≤ x → x < f.width p → u = x) ∧ (f.width p ≤ x → u = f.width p - 1)
        ∧ (y < 0 → v = 0) ∧ (0 ≤ y → y < f.height p → v = y) ∧ (f.height p ≤ y → v = f.height p - 1)

/-- `MC_MSPEL` (R295): the 8-way table over the lowpass filters; the chroma of `MCBUF[0]` stays. A flat
reference gives its value for every vector. Without `WREF0`, or with no frame open, it raises `E_SEQ`. -/
def Obligations.McMspel : Prop :=
  (∀ (s : State) (hshift : Bool), s.err = false →
    (s.fstate = .opened → s.wref0 = none → exec (.mcMspel hshift) s = .next (withError 7 s))
    ∧ (s.fstate = .idle → exec (.mcMspel hshift) s = .next (withError 7 s)))
  ∧ ∀ (s : State) (f : Frame) (hshift : Bool), s.err = false → s.fstate = .opened → s.cur.isSome = true →
    s.wref0 = some f →
    let S (u v : Int) : Int := refPix f .y u v
    let lp (a b c d : Int) : Int := min 255 (max 0 ((9 * b + 9 * c - a - d + 8) / 16))
    let h (u v : Int) : Int := lp (S (u - 1) v) (S u v) (S (u + 1) v) (S (u + 2) v)
    let vert (u v : Int) : Int := lp (S u (v - 1)) (S u v) (S u (v + 1)) (S u (v + 2))
    let hv (u v : Int) : Int := lp (h u (v - 1)) (h u v) (h u (v + 1)) (h u (v + 2))
    let fx := s.mvf.x.toInt % 2
    let fy := s.mvf.y.toInt % 2
    ∃ y : Vector Byte 256,
      exec (.mcMspel hshift) s = .next { s with mcbuf0 := { s.mcbuf0 with y := y } }
      ∧ (∀ r c : Fin 16,
        let u : Int := 16 * s.mbx.toNat + s.mvf.x.toInt / 2 + c.val
        let v : Int := 16 * s.mby.toNat + s.mvf.y.toInt / 2 + r.val
        let out : Int := (y[16 * r.val + c.val]).toNat
        (fy = 0 → fx = 0 → hshift = false → out = S u v)
        ∧ (fy = 0 → fx = 0 → hshift = true → out = (S u v + h u v) / 2)
        ∧ (fy = 0 → fx = 1 → hshift = false → out = h u v)
        ∧ (fy = 0 → fx = 1 → hshift = true → out = (S (u + 1) v + h u v) / 2)
        ∧ (fy = 1 → fx = 0 → hshift = false → out = vert u v)
        ∧ (fy = 1 → fx = 0 → hshift = true → out = (vert u v + hv u v) / 2)
        ∧ (fy = 1 → fx = 1 → hshift = false → out = hv u v)
        ∧ (fy = 1 → fx = 1 → hshift = true → out = (vert (u + 1) v + hv u v) / 2))
      ∧ ∀ g : Byte, (∀ u v, S u v = g.toNat) → ∀ k : Fin 256, y[k] = g

/-- `MC_COMMIT` writes `MCBUF[0]`, or the rounded average of both buffers, into the current macroblock of all
three planes, leaves every other sample, and marks the macroblock; with no frame open it raises `E_SEQ`
(R297). -/
def Obligations.McCommit : Prop :=
  (∀ (s : State) (avg : Bool), s.err = false → s.fstate = .idle →
    exec (.mcCommit avg) s = .next (withError 7 s))
  ∧ ∀ (s : State) (f : Frame) (avg : Bool), OpenWith s f →
    ∃ (h : Frame) (g : Grid Bool),
      exec (.mcCommit avg) s = .next { s with cur := some h, recon := g }
      ∧ s.recon.SetAt (mbKey s.mbx.toNat s.mby.toNat) true g
      ∧ h.wf ∧ h.mbw = f.mbw ∧ h.mbh = f.mbh
      ∧ ∀ p : PlaneId,
        let n := p.unit
        let ox := n * s.mbx.toNat
        let oy := n * s.mby.toNat
        (∀ r c, r < n → c < n →
          (avg = false → h.pix p (ox + c) (oy + r) = s.mcbuf0.sample p r c)
          ∧ (avg = true → (h.pix p (ox + c) (oy + r)).toNat
              = ((s.mcbuf0.sample p r c).toNat + (s.mcbuf1.sample p r c).toNat + 1) / 2))
        ∧ ∀ x y, x < f.width p → y < f.height p → x < ox ∨ ox + n ≤ x ∨ y < oy ∨ oy + n ≤ y →
          h.pix p x y = f.pix p x y

/-- `MV_BDIRECT` scales the predicted vector by `BFRAC_NUM / BFRAC_DEN`, truncating toward zero, and takes the
backward vector as the forward one minus the predicted one; a zero `BFRAC_DEN` raises `E_BAD_CFG` (R296). That it
runs without a picture size too is the model's choice between R296 and R412, log entry 8. -/
def Obligations.BDirect : Prop :=
  ∀ s : State, s.err = false →
    (cfgBfracDen s ≠ 0 →
      let scaled (v : Word) : Word := BitVec.ofInt 32
        (if v.toInt < 0 then -((-v.toInt * cfgBfracNum s) / cfgBfracDen s)
         else v.toInt * cfgBfracNum s / cfgBfracDen s)
      exec .mvBdirect s
        = .next { s with
            mvf := ⟨scaled s.pmv.x, scaled s.pmv.y⟩
            mvbk := ⟨scaled s.pmv.x - s.pmv.x, scaled s.pmv.y - s.pmv.y⟩
            res0 := scaled s.pmv.x, res1 := scaled s.pmv.y })
    ∧ (cfgBfracDen s = 0 → exec .mvBdirect s = .next (withError 8 s))

/-! ## Filters -/

/-- A filter stage, written in the model as two passes over all samples at once, computes what R322 orders:
each plane's vertical boundaries in rising order, sample after sample and in place, then its horizontal ones
(R320, R322, R326). -/
def Obligations.FilterOrder : Prop :=
  ∀ (recon : Grid Bool) (f : Frame), f.wf →
    filterStage overlapPair recon f = filterInOrder overlapPair recon f
      ∧ filterStage loopPair recon f = filterInOrder loopPair recon f

/-- The two boundary filters on 8-bit samples (R323 to R325): the overlap results lie in 0..191; the loop
filter moves the two middle samples by the clamped `delta` and leaves a constant field unchanged. -/
def Obligations.BoundaryFilters : Prop :=
  ∀ a b c d : Byte,
    let p1 : Int := a.toNat
    let p2 : Int := b.toNat
    let p3 : Int := c.toNat
    let p4 : Int := d.toNat
    let o := overlapPair p1 p2 p3 p4
    let l := loopPair p1 p2 p3 p4
    let delta : Int := min (255 - p3) (max (-p2) ((p1 - 2 * p2 + 2 * p3 - p4 + 4) / 8))
    o.before = (9 * p2 + 3 * p3 + 8) / 16 ∧ o.after = (3 * p2 + 9 * p3 + 8) / 16
      ∧ 0 ≤ o.before ∧ o.before ≤ 191 ∧ 0 ≤ o.after ∧ o.after ≤ 191
      ∧ l.before = min 255 (max 0 (p2 + delta)) ∧ l.after = min 255 (max 0 (p3 - delta))
      ∧ (a = b → b = c → c = d → l.before = p2 ∧ l.after = p3)

/-- A macroblock that the host leaves untouched keeps its samples through `FRAME_END`, whatever the filters do
elsewhere (R298, R320). -/
def Obligations.UntouchedMacroblock : Prop :=
  ∀ (s : State) (f : Frame), s.fstate = .opened → s.cur = some f → f.wf →
    ∃ (t : State) (g : Frame), exec .frameEnd s = .next t ∧ t.out = some g ∧ g.wf
      ∧ g.mbw = f.mbw ∧ g.mbh = f.mbh
      ∧ ∀ (p : PlaneId) (x y : Nat), x < f.width p → y < f.height p →
        s.recon.read (mbKey (x / p.unit) (y / p.unit)) = false → g.pix p x y = f.pix p x y

/-! ## Frame control -/

/-- A legal `RESIZE` sets the picture size, resets every predictor buffer, drops every frame and clears the
error record and the frame marks (R352); a zero dimension raises `E_BAD_CMD` and changes nothing else. Every
`DCB` entry takes the sentinel of `CFG.CODEC`: with `CODEC` VC-1 R47 and R352 both say so; with `CODEC` WMV2 R352
says so against R47, and following R352 is the model's choice, log entry 7. -/
def Obligations.Resize : Prop :=
  ∀ (s : State) (w h : BitVec 12),
    (w ≠ 0 → h ≠ 0 → exec (.resize w h) s = .next { s with
      mbw := w, mbh := h
      dcb := Grid.fresh (match cfgCodec s with
        | .vc1 => s.params.raw.dcSentinelVc1
        | .wmv2 => s.params.raw.dcSentinelWmv2)
      acrow := Grid.fresh 0, accol := Grid.fresh 0, mvbuf := Grid.fresh ⟨0, 0, true⟩
      cbpb := Grid.fresh false, recon := Grid.fresh false
      cur := none, out := none, ref := none, fwd := none, bwd := none, w2ref := none
      wref0 := none, wref1 := none
      fstate := .idle, prevRrf := false, mbx := 0, mby := 0, mqValid := false, esc3LL := 0, esc3RL := 0
      err := false, ecode := 0, errcmd := 0, errpos := 0, noref := false, skipb := false, ix8 := false })
    ∧ (w = 0 ∨ h = 0 → s.err = false → exec (.resize w h) s = .next (withError 6 s))

/-- The samples of a default frame (R51) and of a range-adjusted reference (R344), and what the host reads of
an output frame (R85, R86). -/
def Obligations.FrameSamples : Prop :=
  (∀ (s : State) (p : PlaneId) (x y : Nat), x < p.unit * s.mbw.toNat → y < p.unit * s.mbh.toNat →
      (freshFrame s).pix p x y = if p = .y then 16 else 128)
    ∧ (∀ (s : State) (f : Frame) (p : PlaneId) (x y : Nat), x < f.width p → y < f.height p →
      let v : Int := (f.pix p x y).toNat
      let a : Int := ((adjFrame s f).pix p x y).toNat
      (cfgRangered s = false ∨ cfgRangeredfrm s = s.prevRrf → a = v)
      ∧ (cfgRangered s = true → cfgRangeredfrm s = true → s.prevRrf = false → a = (v - 128) / 2 + 128)
      ∧ (cfgRangered s = true → cfgRangeredfrm s = false → s.prevRrf = true →
        a = min 255 (max 0 (2 * v - 128))))
    ∧ ∀ (s : State) (f : Frame) (p : PlaneId) (x y : Nat), s.out = some f → f.wf →
      x < f.width p → y < f.height p →
      portOutValid s = true ∧ portOutMbw s = f.mbw ∧ portOutMbh s = f.mbh
        ∧ portOut s p (y * f.width p + x) = some (f.pix p x y)

/-- A `FRAME_BEGIN` whose checks pass resets the picture state and opens or suppresses the frame by the table
of R341, with the marks of its row. -/
def Obligations.FrameBeginOpens : Prop :=
  ∀ (s : State) (x : Bool), s.fstate = .idle ∨ s.fstate = .aborted → s.mbw ≠ 0 →
    let go (t : State) : Prop := exec (.frameBegin x) s = .next t
    let fresh := some (freshFrame s)
    let adj := adjFrame s
    (cfgCodec s = .vc1 →
      (cfgPquant s ≠ 0 →
        (cfgFrameType s = 0 → go (pictureOpened s .vc1 .i .opened fresh none none false false false))
        ∧ (cfgFrameType s = 3 → go (pictureOpened s .vc1 .bi .opened fresh none none false false false))
        ∧ (cfgFrameType s = 1 →
          (∀ r, s.ref = some r → go (pictureOpened s .vc1 .p .opened (some (adj r)) (some (adj r)) none
            false false false))
          ∧ (s.ref = none → go (pictureOpened s .vc1 .p (.suppressed .noref) fresh none none
            true false false)))
        ∧ (cfgFrameType s = 2 → cfgBfracDen s ≠ 0 →
          (∀ f b, s.fwd = some f → s.bwd = some b → go (pictureOpened s .vc1 .b .opened fresh
            (some (adj f)) (some (adj b)) false false false))
          ∧ (s.fwd = none ∨ s.bwd = none → go (pictureOpened s .vc1 .b (.suppressed .skipb) none none none
            false true false))))
      ∧ (cfgFrameType s = 4 →
        (∀ r, s.ref = some r → go (pictureOpened s .vc1 .skipped .opened (some r) none none
          false false false))
        ∧ (s.ref = none → go (pictureOpened s .vc1 .skipped (.suppressed .noref) fresh none none
          true false false))))
    ∧ (cfgCodec s = .wmv2 → cfgFrameType s ≤ 1 →
      (cfgW2Skipped s = false → cfgPquant s ≠ 0 →
        (cfgFrameType s = 0 →
          (x = false → go (pictureOpened s .wmv2 .i .opened fresh none none false false false))
          ∧ (x = true → go (pictureOpened s .wmv2 .i (.suppressed .ix8) none none none
            false false true)))
        ∧ (cfgFrameType s = 1 →
          (∀ r, s.w2ref = some r → go (pictureOpened s .wmv2 .p .opened (some r) (some r) none
            false false false))
          ∧ (s.w2ref = none → go (pictureOpened s .wmv2 .p (.suppressed .noref) fresh none none
            true false false))))
      ∧ (cfgW2Skipped s = true →
        (∀ r, s.w2ref = some r → go (pictureOpened s .wmv2 .skipped .opened (some r) none none
          false false false))
        ∧ (s.w2ref = none → go (pictureOpened s .wmv2 .skipped (.suppressed .noref) fresh none none
          true false false))))

/-- `FRAME_BEGIN` rejects: `E_SEQ` with a frame open, which is then aborted, or with no picture size;
`E_BAD_CFG` for an illegal frame type, a zero `PQUANT` in a frame that decodes, or a zero `BFRAC_DEN` in a
VC-1 B frame; after these `FSTATE` is `IDLE` (R340). (The slots of a discarded frame stay until the next frame
opens: the order of R340's pseudocode, log entry 24.) -/
def Obligations.FrameBeginRejects : Prop :=
  ∀ (s : State) (x : Bool),
    let bad (code : BitVec 4) : Prop :=
      exec (.frameBegin x) s = .next (withError code (recordCleared s))
    (s.err = false → s.fstate = .opened ∨ (∃ k, s.fstate = .suppressed k) →
      exec (.frameBegin x) s = .next (withError 7 s))
    ∧ (s.fstate = .idle ∨ s.fstate = .aborted →
      (s.mbw = 0 → bad 7)
      ∧ (s.mbw ≠ 0 →
        (cfgCodec s = .vc1 → 4 < cfgFrameType s → bad 8)
        ∧ (cfgCodec s = .wmv2 → 1 < cfgFrameType s → bad 8)
        ∧ (cfgCodec s = .vc1 → cfgFrameType s < 4 → cfgPquant s = 0 → bad 8)
        ∧ (cfgCodec s = .wmv2 → cfgFrameType s ≤ 1 → cfgW2Skipped s = false → cfgPquant s = 0 → bad 8)
        ∧ (cfgCodec s = .vc1 → cfgFrameType s = 2 → cfgBfracDen s = 0 → bad 8)))

/-- `FRAME_END` (R321, R346, R347): without output from an aborted frame or one skipped or suppressed for
IntraX8; with the default-fill frame when its reference was missing; with the filtered frame when open. The
anchors rotate for VC-1 `I`, `P` and `Skipped` and for WMV2. -/
def Obligations.FrameEnd : Prop :=
  ∀ s : State,
    let closed (t : State) : State := { t with cur := none, wref0 := none, wref1 := none, fstate := .idle }
    let done (c : Option Frame) : Prop :=
      (s.fc = .vc1 → s.ft = .i ∨ s.ft = .p → exec .frameEnd s = .next (closed { s with
        out := c, fwd := s.bwd, bwd := c, ref := c, prevRrf := cfgRangeredfrm s }))
      ∧ (s.fc = .vc1 → s.ft = .skipped → exec .frameEnd s = .next (closed { s with
        out := c, fwd := s.bwd, bwd := c, ref := c }))
      ∧ (s.fc = .vc1 → s.ft = .b ∨ s.ft = .bi → exec .frameEnd s = .next (closed { s with out := c }))
      ∧ (s.fc = .wmv2 → exec .frameEnd s = .next (closed { s with out := c, w2ref := c }))
    let stage (on : Prop) (k : Int → Int → Int → Int → EdgePair) (f g : Frame) : Prop :=
      (on → g = filterStage k s.recon f) ∧ (¬on → g = f)
    (s.err = false → s.fstate = .idle → exec .frameEnd s = .next (withError 7 s))
    ∧ (s.fstate = .aborted ∨ s.fstate = .suppressed .skipb ∨ s.fstate = .suppressed .ix8 →
      exec .frameEnd s = .next (closed s))
    ∧ (s.fstate = .suppressed .noref → done s.cur)
    ∧ (s.fstate = .opened → ∀ f g h, s.cur = some f →
      stage (s.fc = .vc1 ∧ s.ft ≠ .skipped ∧ cfgOverlap s = true ∧ 9 ≤ cfgPquant s) overlapPair f g →
      stage (s.fc = .vc1 ∧ s.ft ≠ .skipped ∧ cfgLoopfilter s = true) loopPair g h →
      done (some h))

/-- The frame state changes only as the table of R349 says. -/
def Obligations.FrameStateTransitions : Prop :=
  ∀ (i : Instr) (s t : State), exec i s = .next t → t.fstate ≠ s.fstate →
    (∃ x, i = .frameBegin x ∧ (s.fstate = .idle ∨ s.fstate = .aborted)
      ∧ ((t.err = false ∧ t.fstate.active = true)
        ∨ (t.err = true ∧ s.fstate = .aborted ∧ t.fstate = .idle)))
    ∨ (i = .frameEnd ∧ s.fstate ≠ .idle ∧ t.fstate = .idle)
    ∨ (s.fstate.active = true ∧ t.err = true ∧ t.fstate = .aborted)
    ∨ ∃ w h, i = .resize w h ∧ t.fstate = .idle
end

