-- ==== Sys2Proof/Laws/Frame.lean ====
section
/-! SUPPORT. The laws of frames and of motion-compensation buffers: building one and reading it back. -/

namespace Sys2Proof.Machine

@[simp] theorem raster_length (w h : Nat) (g : Nat → Nat → Byte) : (raster w h g).length = w * h := by
  simp [raster]

/-- Sample `(x, y)` of a row-major plane stands at offset `y * w + x` (R85). -/
theorem raster_getD {w h x y : Nat} (hx : x < w) (hy : y < h) (g : Nat → Nat → Byte) (d : Byte) :
    (raster w h g).getD (y * w + x) d = g x y := by
  have hlt : y * w + x < w * h := by nlinarith
  have hdiv : (y * w + x) / w = y := by
    rw [Nat.add_comm, Nat.add_mul_div_right _ _ (by omega), Nat.div_eq_of_lt hx, Nat.zero_add]
  have hmod : (y * w + x) % w = x := by
    rw [Nat.add_comm, Nat.add_mul_mod_self_right, Nat.mod_eq_of_lt hx]
  simp [raster, List.getD, hlt, hdiv, hmod]

@[simp] theorem Frame.mbw_build (w h : BitVec 12) (g : PlaneId → Nat → Nat → Byte) :
    (Frame.build w h g).mbw = w := rfl

@[simp] theorem Frame.mbh_build (w h : BitVec 12) (g : PlaneId → Nat → Nat → Byte) :
    (Frame.build w h g).mbh = h := rfl

@[simp] theorem Frame.width_build (w h : BitVec 12) (g : PlaneId → Nat → Nat → Byte) (p : PlaneId) :
    (Frame.build w h g).width p = p.unit * w.toNat := rfl

@[simp] theorem Frame.height_build (w h : BitVec 12) (g : PlaneId → Nat → Nat → Byte) (p : PlaneId) :
    (Frame.build w h g).height p = p.unit * h.toNat := rfl

/-- Every frame that is built has all its samples. -/
theorem Frame.wf_build (w h : BitVec 12) (g : PlaneId → Nat → Nat → Byte) : (Frame.build w h g).wf :=
  ⟨raster_length _ _ _, raster_length _ _ _, raster_length _ _ _⟩

/-- A sample of a frame that is built, where the sample exists. -/
theorem Frame.pix_build {w h : BitVec 12} {p : PlaneId} {x y : Nat} (hx : x < p.unit * w.toNat)
    (hy : y < p.unit * h.toNat) (g : PlaneId → Nat → Nat → Byte) :
    (Frame.build w h g).pix p x y = g p x y := by
  cases p <;> exact raster_getD hx hy _ _

@[simp] theorem Frame.mbw_mapPix (f : Frame) (g : PlaneId → Nat → Nat → Byte → Byte) :
    (f.mapPix g).mbw = f.mbw := rfl

@[simp] theorem Frame.mbh_mapPix (f : Frame) (g : PlaneId → Nat → Nat → Byte → Byte) :
    (f.mapPix g).mbh = f.mbh := rfl

@[simp] theorem Frame.width_mapPix (f : Frame) (g : PlaneId → Nat → Nat → Byte → Byte) (p : PlaneId) :
    (f.mapPix g).width p = f.width p := rfl

@[simp] theorem Frame.height_mapPix (f : Frame) (g : PlaneId → Nat → Nat → Byte → Byte) (p : PlaneId) :
    (f.mapPix g).height p = f.height p := rfl

theorem Frame.wf_mapPix (f : Frame) (g : PlaneId → Nat → Nat → Byte → Byte) : (f.mapPix g).wf :=
  Frame.wf_build _ _ _

/-- A sample of a mapped frame, where the sample exists. -/
theorem Frame.pix_mapPix {f : Frame} {p : PlaneId} {x y : Nat} (hx : x < f.width p) (hy : y < f.height p)
    (g : PlaneId → Nat → Nat → Byte → Byte) : (f.mapPix g).pix p x y = g p x y (f.pix p x y) :=
  Frame.pix_build hx hy _

/-- A sample of a default frame (R51). -/
theorem Frame.pix_fresh {w h : BitVec 12} {p : PlaneId} {x y : Nat} (hx : x < p.unit * w.toNat)
    (hy : y < p.unit * h.toNat) : (Frame.fresh w h).pix p x y = fillOf p := Frame.pix_build hx hy _

theorem Frame.wf_fresh (w h : BitVec 12) : (Frame.fresh w h).wf := Frame.wf_build _ _ _

/-- A sample of a buffer that is built. -/
theorem McBuf.sample_build {p : PlaneId} {r c : Nat} (hr : r < p.unit) (hc : c < p.unit)
    (g : PlaneId → Nat → Nat → Byte) : (McBuf.build g).sample p r c = g p r c := by
  cases p <;> simp only [PlaneId.unit] at hr hc
  · have h : 16 * r + c < 256 := by omega
    have h1 : (16 * r + c) / 16 = r := by omega
    have h2 : (16 * r + c) % 16 = c := by omega
    simp [McBuf.sample, McBuf.build, h, h1, h2]
  · have h : 8 * r + c < 64 := by omega
    have h1 : (8 * r + c) / 8 = r := by omega
    have h2 : (8 * r + c) % 8 = c := by omega
    simp [McBuf.sample, McBuf.build, h, h1, h2]
  · have h : 8 * r + c < 64 := by omega
    have h1 : (8 * r + c) / 8 = r := by omega
    have h2 : (8 * r + c) % 8 = c := by omega
    simp [McBuf.sample, McBuf.build, h, h1, h2]

end Sys2Proof.Machine
end

