-- ==== Sys2Proof/Laws/Sparse.lean ====
section
/-! SUPPORT. The laws of sparse data and of grids: a read after a write, and the one canonical form. -/

namespace Sys2Proof.Machine

variable {α : Type}

/-- A read after an insertion gives the inserted value at its key and the old value elsewhere. -/
@[simp] theorem sparseLookup_insert (l : List (Nat × α)) (a : Nat) (v : α) (b : Nat) :
    sparseLookup (sparseInsert l a v) b = if b = a then some v else sparseLookup l b := by
  induction l with
  | nil => simp [sparseInsert, sparseLookup]
  | cons c rest ih =>
    obtain ⟨k, w⟩ := c
    by_cases h1 : a < k
    · simp [sparseInsert, sparseLookup, h1]
    · by_cases h2 : a = k
      · subst h2
        by_cases hb : b = a <;> simp [sparseInsert, sparseLookup, hb]
      · by_cases hb : b = k
        · subst hb
          have : b ≠ a := fun h => h2 h.symm
          simp [sparseInsert, sparseLookup, h1, h2, this]
        · simp [sparseInsert, sparseLookup, h1, h2, hb, ih]

/-- A read after an erasure gives nothing at its key and the old value elsewhere. -/
@[simp] theorem sparseLookup_erase (l : List (Nat × α)) (a b : Nat) :
    sparseLookup (sparseErase l a) b = if b = a then none else sparseLookup l b := by
  induction l with
  | nil => simp [sparseErase, sparseLookup]
  | cons c rest ih =>
    obtain ⟨k, w⟩ := c
    by_cases hk : k = a
    · have he : sparseErase ((k, w) :: rest) a = sparseErase rest a := by simp [sparseErase, hk]
      by_cases hb : b = a
      · rw [he, ih, if_pos hb, if_pos hb]
      · have : b ≠ k := fun h => hb (h.trans hk)
        simp [he, ih, hb, sparseLookup, this]
    · have he : sparseErase ((k, w) :: rest) a = (k, w) :: sparseErase rest a := by
        simp [sparseErase, hk]
      by_cases hb : b = k
      · subst hb; simp [he, sparseLookup, hk]
      · simp [he, sparseLookup, hb, ih]

theorem mem_sparseErase {l : List (Nat × α)} {a : Nat} {c : Nat × α} (h : c ∈ sparseErase l a) : c ∈ l :=
  (List.mem_filter.mp h).1

theorem mem_sparseInsert {l : List (Nat × α)} {a : Nat} {v : α} {c : Nat × α}
    (h : c ∈ sparseInsert l a v) : c = (a, v) ∨ c ∈ l := by
  induction l with
  | nil => simpa [sparseInsert] using h
  | cons d rest ih =>
    obtain ⟨k, w⟩ := d
    simp only [sparseInsert] at h
    split at h
    · simpa using h
    · split at h
      · rcases List.mem_cons.mp h with h | h
        · exact .inl h
        · exact .inr (List.mem_cons_of_mem _ h)
      · rcases List.mem_cons.mp h with h | h
        · exact .inr (h ▸ List.mem_cons_self)
        · rcases ih h with h | h
          · exact .inl h
          · exact .inr (List.mem_cons_of_mem _ h)

/-- An erasure keeps the keys rising. -/
theorem sparseSorted_erase {l : List (Nat × α)} (h : sparseSorted l) (a : Nat) :
    sparseSorted (sparseErase l a) :=
  h.sublist (List.filter_sublist.map Prod.fst)

/-- An insertion keeps the keys rising. -/
theorem sparseSorted_insert {l : List (Nat × α)} (h : sparseSorted l) (a : Nat) (v : α) :
    sparseSorted (sparseInsert l a v) := by
  induction l with
  | nil => simp [sparseInsert, sparseSorted]
  | cons d rest ih =>
    obtain ⟨k, w⟩ := d
    simp only [sparseSorted, List.map_cons, List.pairwise_cons] at h ih
    simp only [sparseInsert]
    split
    · rename_i hlt
      simp only [sparseSorted, List.map_cons, List.pairwise_cons, List.mem_cons, forall_eq_or_imp]
      exact ⟨⟨hlt, fun x hx => lt_trans hlt (h.1 x hx)⟩, h⟩
    · split
      · rename_i heq; subst heq
        simpa only [sparseSorted, List.map_cons, List.pairwise_cons] using h
      · simp only [sparseSorted, List.map_cons, List.pairwise_cons]
        refine ⟨fun x hx => ?_, ih h.2⟩
        obtain ⟨c, hc, rfl⟩ := List.mem_map.mp hx
        rcases mem_sparseInsert hc with rfl | hc
        · simp only; omega
        · exact h.1 _ (List.mem_map_of_mem hc)

/-- Under the canonical form a listed pair is what a read gives. -/
theorem sparseLookup_of_mem {l : List (Nat × α)} (h : sparseSorted l) {c : Nat × α} (hc : c ∈ l) :
    sparseLookup l c.1 = some c.2 := by
  induction l with
  | nil => simp at hc
  | cons d rest ih =>
    obtain ⟨k, w⟩ := d
    simp only [sparseSorted, List.map_cons, List.pairwise_cons] at h ih
    rcases List.mem_cons.mp hc with rfl | hc
    · simp [sparseLookup]
    · have : k < c.1 := h.1 _ (List.mem_map_of_mem hc)
      rw [sparseLookup, if_neg (by omega)]
      exact ih h.2 hc

theorem mem_of_sparseLookup {l : List (Nat × α)} {k : Nat} {v : α} (h : sparseLookup l k = some v) :
    (k, v) ∈ l := by
  induction l with
  | nil => simp [sparseLookup] at h
  | cons d rest ih =>
    obtain ⟨j, w⟩ := d
    simp only [sparseLookup] at h
    split at h
    · simp_all
    · exact List.mem_cons_of_mem _ (ih h)

/-- Equal contents are equal data: two lists with rising keys that read alike are one list. -/
theorem sparse_ext {l m : List (Nat × α)} (hl : sparseSorted l) (hm : sparseSorted m)
    (h : ∀ a, sparseLookup l a = sparseLookup m a) : l = m := by
  have nd : ∀ {n : List (Nat × α)}, sparseSorted n → n.Pairwise (fun a b => a.1 < b.1) := fun hn =>
    List.pairwise_map.mp hn
  refine List.Perm.eq_of_pairwise (le := fun a b => a.1 < b.1) ?_ (nd hl) (nd hm) ?_
  · intro a b _ _ h1 h2; exact absurd h1 (by omega)
  · have nodup : ∀ {n : List (Nat × α)}, sparseSorted n → n.Nodup := fun hn =>
      (nd hn).imp fun h1 h2 => absurd h1 (by simp [h2])
    refine (List.perm_ext_iff_of_nodup (nodup hl) (nodup hm)).mpr fun c => ?_
    constructor
    · intro hc
      exact mem_of_sparseLookup ((h c.1).symm.trans (sparseLookup_of_mem hl hc))
    · intro hc
      exact mem_of_sparseLookup ((h c.1).trans (sparseLookup_of_mem hm hc))

/-! ## Grids -/

@[simp] theorem Grid.read_fresh (d : α) (k : Nat) : (Grid.fresh d).read k = d := rfl

@[simp] theorem Grid.dflt_fresh (d : α) : (Grid.fresh d).dflt = d := rfl

theorem Grid.wf_fresh [DecidableEq α] (d : α) : (Grid.fresh d).wf :=
  ⟨List.Pairwise.nil, by simp [Grid.fresh]⟩

@[simp] theorem Grid.dflt_write [DecidableEq α] (g : Grid α) (k : Nat) (v : α) :
    (g.write k v).dflt = g.dflt := by
  unfold Grid.write; split <;> rfl

/-- A read after a write: the value written at its key, the old value elsewhere. -/
@[simp] theorem Grid.read_write [DecidableEq α] (g : Grid α) (k : Nat) (v : α) (j : Nat) :
    (g.write k v).read j = if j = k then v else g.read j := by
  unfold Grid.write Grid.read
  by_cases hv : v = g.dflt
  · by_cases hj : j = k <;> simp [hv, hj]
  · by_cases hj : j = k <;> simp [hv, hj]

/-- A write keeps the canonical form. -/
theorem Grid.wf_write [DecidableEq α] {g : Grid α} (h : g.wf) (k : Nat) (v : α) : (g.write k v).wf := by
  unfold Grid.write
  split
  · exact ⟨sparseSorted_erase h.1 k, fun c hc => h.2 c (mem_sparseErase hc)⟩
  · rename_i hv
    refine ⟨sparseSorted_insert h.1 k v, fun c hc => ?_⟩
    rcases mem_sparseInsert hc with rfl | hc
    · exact hv
    · exact h.2 c hc

end Sys2Proof.Machine
end

