-- ==== Sys2Proof/Laws/State.lean ====
section
/-! SUPPORT. What each named state update does to each field of `State`: one lemma per field per update,
true by `rfl`, so that no proof unfolds a record update. -/

namespace Sys2Proof.Machine

/-! ## Raising an error (R380) -/

@[simp] theorem raise_params (e : ErrCode) (s : State) : (raise e s).params = s.params := rfl
@[simp] theorem raise_cfg (e : ErrCode) (s : State) : (raise e s).cfg = s.cfg := rfl
@[simp] theorem raise_fc (e : ErrCode) (s : State) : (raise e s).fc = s.fc := rfl
@[simp] theorem raise_ft (e : ErrCode) (s : State) : (raise e s).ft = s.ft := rfl
@[simp] theorem raise_mbw (e : ErrCode) (s : State) : (raise e s).mbw = s.mbw := rfl
@[simp] theorem raise_mbh (e : ErrCode) (s : State) : (raise e s).mbh = s.mbh := rfl
@[simp] theorem raise_mbx (e : ErrCode) (s : State) : (raise e s).mbx = s.mbx := rfl
@[simp] theorem raise_mby (e : ErrCode) (s : State) : (raise e s).mby = s.mby := rfl
@[simp] theorem raise_mquant (e : ErrCode) (s : State) : (raise e s).mquant = s.mquant := rfl
@[simp] theorem raise_mqValid (e : ErrCode) (s : State) : (raise e s).mqValid = s.mqValid := rfl
@[simp] theorem raise_brPos (e : ErrCode) (s : State) : (raise e s).brPos = s.brPos := rfl
@[simp] theorem raise_brLen (e : ErrCode) (s : State) : (raise e s).brLen = s.brLen := rfl
@[simp] theorem raise_res0 (e : ErrCode) (s : State) : (raise e s).res0 = s.res0 := rfl
@[simp] theorem raise_res1 (e : ErrCode) (s : State) : (raise e s).res1 = s.res1 := rfl
@[simp] theorem raise_res2 (e : ErrCode) (s : State) : (raise e s).res2 = s.res2 := rfl
@[simp] theorem raise_dcdiff (e : ErrCode) (s : State) : (raise e s).dcdiff = s.dcdiff := rfl
@[simp] theorem raise_pdir (e : ErrCode) (s : State) : (raise e s).pdir = s.pdir := rfl
@[simp] theorem raise_coef (e : ErrCode) (s : State) : (raise e s).coef = s.coef := rfl
@[simp] theorem raise_pmv (e : ErrCode) (s : State) : (raise e s).pmv = s.pmv := rfl
@[simp] theorem raise_mvf (e : ErrCode) (s : State) : (raise e s).mvf = s.mvf := rfl
@[simp] theorem raise_mvbk (e : ErrCode) (s : State) : (raise e s).mvbk = s.mvbk := rfl
@[simp] theorem raise_esc3LL (e : ErrCode) (s : State) : (raise e s).esc3LL = s.esc3LL := rfl
@[simp] theorem raise_esc3RL (e : ErrCode) (s : State) : (raise e s).esc3RL = s.esc3RL := rfl
@[simp] theorem raise_dcb (e : ErrCode) (s : State) : (raise e s).dcb = s.dcb := rfl
@[simp] theorem raise_acrow (e : ErrCode) (s : State) : (raise e s).acrow = s.acrow := rfl
@[simp] theorem raise_accol (e : ErrCode) (s : State) : (raise e s).accol = s.accol := rfl
@[simp] theorem raise_mvbuf (e : ErrCode) (s : State) : (raise e s).mvbuf = s.mvbuf := rfl
@[simp] theorem raise_cbpb (e : ErrCode) (s : State) : (raise e s).cbpb = s.cbpb := rfl
@[simp] theorem raise_recon (e : ErrCode) (s : State) : (raise e s).recon = s.recon := rfl
@[simp] theorem raise_cur (e : ErrCode) (s : State) : (raise e s).cur = s.cur := rfl
@[simp] theorem raise_out (e : ErrCode) (s : State) : (raise e s).out = s.out := rfl
@[simp] theorem raise_ref (e : ErrCode) (s : State) : (raise e s).ref = s.ref := rfl
@[simp] theorem raise_fwd (e : ErrCode) (s : State) : (raise e s).fwd = s.fwd := rfl
@[simp] theorem raise_bwd (e : ErrCode) (s : State) : (raise e s).bwd = s.bwd := rfl
@[simp] theorem raise_w2ref (e : ErrCode) (s : State) : (raise e s).w2ref = s.w2ref := rfl
@[simp] theorem raise_wref0 (e : ErrCode) (s : State) : (raise e s).wref0 = s.wref0 := rfl
@[simp] theorem raise_wref1 (e : ErrCode) (s : State) : (raise e s).wref1 = s.wref1 := rfl
@[simp] theorem raise_mcbuf0 (e : ErrCode) (s : State) : (raise e s).mcbuf0 = s.mcbuf0 := rfl
@[simp] theorem raise_mcbuf1 (e : ErrCode) (s : State) : (raise e s).mcbuf1 = s.mcbuf1 := rfl
@[simp] theorem raise_fstate (e : ErrCode) (s : State) :
    (raise e s).fstate = if s.fstate.active then .aborted else s.fstate := rfl
@[simp] theorem raise_prevRrf (e : ErrCode) (s : State) : (raise e s).prevRrf = s.prevRrf := rfl
@[simp] theorem raise_err (e : ErrCode) (s : State) : (raise e s).err = true := rfl
@[simp] theorem raise_ecode (e : ErrCode) (s : State) :
    (raise e s).ecode = if s.err then s.ecode else e.code := rfl
@[simp] theorem raise_last (e : ErrCode) (s : State) : (raise e s).last = s.last := rfl
@[simp] theorem raise_noref (e : ErrCode) (s : State) : (raise e s).noref = s.noref := rfl
@[simp] theorem raise_skipb (e : ErrCode) (s : State) : (raise e s).skipb = s.skipb := rfl
@[simp] theorem raise_ix8 (e : ErrCode) (s : State) : (raise e s).ix8 = s.ix8 := rfl
@[simp] theorem raise_errcmd (e : ErrCode) (s : State) :
    (raise e s).errcmd = if s.err then s.errcmd else s.cmd := rfl
@[simp] theorem raise_errpos (e : ErrCode) (s : State) :
    (raise e s).errpos = if s.err then s.errpos else s.brPos := rfl
@[simp] theorem raise_payload (e : ErrCode) (s : State) : (raise e s).payload = s.payload := rfl
@[simp] theorem raise_payloadLen (e : ErrCode) (s : State) : (raise e s).payloadLen = s.payloadLen := rfl
@[simp] theorem raise_cmd (e : ErrCode) (s : State) : (raise e s).cmd = s.cmd := rfl
@[simp] theorem raise_port (e : ErrCode) (s : State) : (raise e s).port = s.port := rfl

/-! ## Clearing the error record (R385) -/

@[simp] theorem clearError_params (s : State) : (clearError s).params = s.params := rfl
@[simp] theorem clearError_cfg (s : State) : (clearError s).cfg = s.cfg := rfl
@[simp] theorem clearError_fc (s : State) : (clearError s).fc = s.fc := rfl
@[simp] theorem clearError_ft (s : State) : (clearError s).ft = s.ft := rfl
@[simp] theorem clearError_mbw (s : State) : (clearError s).mbw = s.mbw := rfl
@[simp] theorem clearError_mbh (s : State) : (clearError s).mbh = s.mbh := rfl
@[simp] theorem clearError_mbx (s : State) : (clearError s).mbx = s.mbx := rfl
@[simp] theorem clearError_mby (s : State) : (clearError s).mby = s.mby := rfl
@[simp] theorem clearError_mquant (s : State) : (clearError s).mquant = s.mquant := rfl
@[simp] theorem clearError_mqValid (s : State) : (clearError s).mqValid = s.mqValid := rfl
@[simp] theorem clearError_brPos (s : State) : (clearError s).brPos = s.brPos := rfl
@[simp] theorem clearError_brLen (s : State) : (clearError s).brLen = s.brLen := rfl
@[simp] theorem clearError_res0 (s : State) : (clearError s).res0 = s.res0 := rfl
@[simp] theorem clearError_res1 (s : State) : (clearError s).res1 = s.res1 := rfl
@[simp] theorem clearError_res2 (s : State) : (clearError s).res2 = s.res2 := rfl
@[simp] theorem clearError_dcdiff (s : State) : (clearError s).dcdiff = s.dcdiff := rfl
@[simp] theorem clearError_pdir (s : State) : (clearError s).pdir = s.pdir := rfl
@[simp] theorem clearError_coef (s : State) : (clearError s).coef = s.coef := rfl
@[simp] theorem clearError_pmv (s : State) : (clearError s).pmv = s.pmv := rfl
@[simp] theorem clearError_mvf (s : State) : (clearError s).mvf = s.mvf := rfl
@[simp] theorem clearError_mvbk (s : State) : (clearError s).mvbk = s.mvbk := rfl
@[simp] theorem clearError_esc3LL (s : State) : (clearError s).esc3LL = s.esc3LL := rfl
@[simp] theorem clearError_esc3RL (s : State) : (clearError s).esc3RL = s.esc3RL := rfl
@[simp] theorem clearError_dcb (s : State) : (clearError s).dcb = s.dcb := rfl
@[simp] theorem clearError_acrow (s : State) : (clearError s).acrow = s.acrow := rfl
@[simp] theorem clearError_accol (s : State) : (clearError s).accol = s.accol := rfl
@[simp] theorem clearError_mvbuf (s : State) : (clearError s).mvbuf = s.mvbuf := rfl
@[simp] theorem clearError_cbpb (s : State) : (clearError s).cbpb = s.cbpb := rfl
@[simp] theorem clearError_recon (s : State) : (clearError s).recon = s.recon := rfl
@[simp] theorem clearError_cur (s : State) : (clearError s).cur = s.cur := rfl
@[simp] theorem clearError_out (s : State) : (clearError s).out = s.out := rfl
@[simp] theorem clearError_ref (s : State) : (clearError s).ref = s.ref := rfl
@[simp] theorem clearError_fwd (s : State) : (clearError s).fwd = s.fwd := rfl
@[simp] theorem clearError_bwd (s : State) : (clearError s).bwd = s.bwd := rfl
@[simp] theorem clearError_w2ref (s : State) : (clearError s).w2ref = s.w2ref := rfl
@[simp] theorem clearError_wref0 (s : State) : (clearError s).wref0 = s.wref0 := rfl
@[simp] theorem clearError_wref1 (s : State) : (clearError s).wref1 = s.wref1 := rfl
@[simp] theorem clearError_mcbuf0 (s : State) : (clearError s).mcbuf0 = s.mcbuf0 := rfl
@[simp] theorem clearError_mcbuf1 (s : State) : (clearError s).mcbuf1 = s.mcbuf1 := rfl
@[simp] theorem clearError_fstate (s : State) : (clearError s).fstate = s.fstate := rfl
@[simp] theorem clearError_prevRrf (s : State) : (clearError s).prevRrf = s.prevRrf := rfl
@[simp] theorem clearError_err (s : State) : (clearError s).err = false := rfl
@[simp] theorem clearError_ecode (s : State) : (clearError s).ecode = 0 := rfl
@[simp] theorem clearError_last (s : State) : (clearError s).last = s.last := rfl
@[simp] theorem clearError_noref (s : State) : (clearError s).noref = s.noref := rfl
@[simp] theorem clearError_skipb (s : State) : (clearError s).skipb = s.skipb := rfl
@[simp] theorem clearError_ix8 (s : State) : (clearError s).ix8 = s.ix8 := rfl
@[simp] theorem clearError_errcmd (s : State) : (clearError s).errcmd = 0 := rfl
@[simp] theorem clearError_errpos (s : State) : (clearError s).errpos = 0 := rfl
@[simp] theorem clearError_payload (s : State) : (clearError s).payload = s.payload := rfl
@[simp] theorem clearError_payloadLen (s : State) : (clearError s).payloadLen = s.payloadLen := rfl
@[simp] theorem clearError_cmd (s : State) : (clearError s).cmd = s.cmd := rfl
@[simp] theorem clearError_port (s : State) : (clearError s).port = s.port := rfl

/-! ## Moving the cursor (R132) -/

@[simp] theorem skipBits_params (n : Nat) (s : State) : (skipBits n s).params = s.params := rfl
@[simp] theorem skipBits_cfg (n : Nat) (s : State) : (skipBits n s).cfg = s.cfg := rfl
@[simp] theorem skipBits_fc (n : Nat) (s : State) : (skipBits n s).fc = s.fc := rfl
@[simp] theorem skipBits_ft (n : Nat) (s : State) : (skipBits n s).ft = s.ft := rfl
@[simp] theorem skipBits_mbw (n : Nat) (s : State) : (skipBits n s).mbw = s.mbw := rfl
@[simp] theorem skipBits_mbh (n : Nat) (s : State) : (skipBits n s).mbh = s.mbh := rfl
@[simp] theorem skipBits_mbx (n : Nat) (s : State) : (skipBits n s).mbx = s.mbx := rfl
@[simp] theorem skipBits_mby (n : Nat) (s : State) : (skipBits n s).mby = s.mby := rfl
@[simp] theorem skipBits_mquant (n : Nat) (s : State) : (skipBits n s).mquant = s.mquant := rfl
@[simp] theorem skipBits_mqValid (n : Nat) (s : State) : (skipBits n s).mqValid = s.mqValid := rfl
@[simp] theorem skipBits_brPos (n : Nat) (s : State) :
    (skipBits n s).brPos = n32 (min (s.brPos.toNat + n) (2 ^ 32 - 1)) := rfl
@[simp] theorem skipBits_brLen (n : Nat) (s : State) : (skipBits n s).brLen = s.brLen := rfl
@[simp] theorem skipBits_res0 (n : Nat) (s : State) : (skipBits n s).res0 = s.res0 := rfl
@[simp] theorem skipBits_res1 (n : Nat) (s : State) : (skipBits n s).res1 = s.res1 := rfl
@[simp] theorem skipBits_res2 (n : Nat) (s : State) : (skipBits n s).res2 = s.res2 := rfl
@[simp] theorem skipBits_dcdiff (n : Nat) (s : State) : (skipBits n s).dcdiff = s.dcdiff := rfl
@[simp] theorem skipBits_pdir (n : Nat) (s : State) : (skipBits n s).pdir = s.pdir := rfl
@[simp] theorem skipBits_coef (n : Nat) (s : State) : (skipBits n s).coef = s.coef := rfl
@[simp] theorem skipBits_pmv (n : Nat) (s : State) : (skipBits n s).pmv = s.pmv := rfl
@[simp] theorem skipBits_mvf (n : Nat) (s : State) : (skipBits n s).mvf = s.mvf := rfl
@[simp] theorem skipBits_mvbk (n : Nat) (s : State) : (skipBits n s).mvbk = s.mvbk := rfl
@[simp] theorem skipBits_esc3LL (n : Nat) (s : State) : (skipBits n s).esc3LL = s.esc3LL := rfl
@[simp] theorem skipBits_esc3RL (n : Nat) (s : State) : (skipBits n s).esc3RL = s.esc3RL := rfl
@[simp] theorem skipBits_dcb (n : Nat) (s : State) : (skipBits n s).dcb = s.dcb := rfl
@[simp] theorem skipBits_acrow (n : Nat) (s : State) : (skipBits n s).acrow = s.acrow := rfl
@[simp] theorem skipBits_accol (n : Nat) (s : State) : (skipBits n s).accol = s.accol := rfl
@[simp] theorem skipBits_mvbuf (n : Nat) (s : State) : (skipBits n s).mvbuf = s.mvbuf := rfl
@[simp] theorem skipBits_cbpb (n : Nat) (s : State) : (skipBits n s).cbpb = s.cbpb := rfl
@[simp] theorem skipBits_recon (n : Nat) (s : State) : (skipBits n s).recon = s.recon := rfl
@[simp] theorem skipBits_cur (n : Nat) (s : State) : (skipBits n s).cur = s.cur := rfl
@[simp] theorem skipBits_out (n : Nat) (s : State) : (skipBits n s).out = s.out := rfl
@[simp] theorem skipBits_ref (n : Nat) (s : State) : (skipBits n s).ref = s.ref := rfl
@[simp] theorem skipBits_fwd (n : Nat) (s : State) : (skipBits n s).fwd = s.fwd := rfl
@[simp] theorem skipBits_bwd (n : Nat) (s : State) : (skipBits n s).bwd = s.bwd := rfl
@[simp] theorem skipBits_w2ref (n : Nat) (s : State) : (skipBits n s).w2ref = s.w2ref := rfl
@[simp] theorem skipBits_wref0 (n : Nat) (s : State) : (skipBits n s).wref0 = s.wref0 := rfl
@[simp] theorem skipBits_wref1 (n : Nat) (s : State) : (skipBits n s).wref1 = s.wref1 := rfl
@[simp] theorem skipBits_mcbuf0 (n : Nat) (s : State) : (skipBits n s).mcbuf0 = s.mcbuf0 := rfl
@[simp] theorem skipBits_mcbuf1 (n : Nat) (s : State) : (skipBits n s).mcbuf1 = s.mcbuf1 := rfl
@[simp] theorem skipBits_fstate (n : Nat) (s : State) : (skipBits n s).fstate = s.fstate := rfl
@[simp] theorem skipBits_prevRrf (n : Nat) (s : State) : (skipBits n s).prevRrf = s.prevRrf := rfl
@[simp] theorem skipBits_err (n : Nat) (s : State) : (skipBits n s).err = s.err := rfl
@[simp] theorem skipBits_ecode (n : Nat) (s : State) : (skipBits n s).ecode = s.ecode := rfl
@[simp] theorem skipBits_last (n : Nat) (s : State) : (skipBits n s).last = s.last := rfl
@[simp] theorem skipBits_noref (n : Nat) (s : State) : (skipBits n s).noref = s.noref := rfl
@[simp] theorem skipBits_skipb (n : Nat) (s : State) : (skipBits n s).skipb = s.skipb := rfl
@[simp] theorem skipBits_ix8 (n : Nat) (s : State) : (skipBits n s).ix8 = s.ix8 := rfl
@[simp] theorem skipBits_errcmd (n : Nat) (s : State) : (skipBits n s).errcmd = s.errcmd := rfl
@[simp] theorem skipBits_errpos (n : Nat) (s : State) : (skipBits n s).errpos = s.errpos := rfl
@[simp] theorem skipBits_payload (n : Nat) (s : State) : (skipBits n s).payload = s.payload := rfl
@[simp] theorem skipBits_payloadLen (n : Nat) (s : State) : (skipBits n s).payloadLen = s.payloadLen := rfl
@[simp] theorem skipBits_cmd (n : Nat) (s : State) : (skipBits n s).cmd = s.cmd := rfl
@[simp] theorem skipBits_port (n : Nat) (s : State) : (skipBits n s).port = s.port := rfl

/-! ## The writes of a DC prediction (R254, R255) -/

@[simp] theorem applyDc_params (d : DcChoice) (s : State) : (applyDc d s).params = s.params := rfl
@[simp] theorem applyDc_cfg (d : DcChoice) (s : State) : (applyDc d s).cfg = s.cfg := rfl
@[simp] theorem applyDc_fc (d : DcChoice) (s : State) : (applyDc d s).fc = s.fc := rfl
@[simp] theorem applyDc_ft (d : DcChoice) (s : State) : (applyDc d s).ft = s.ft := rfl
@[simp] theorem applyDc_mbw (d : DcChoice) (s : State) : (applyDc d s).mbw = s.mbw := rfl
@[simp] theorem applyDc_mbh (d : DcChoice) (s : State) : (applyDc d s).mbh = s.mbh := rfl
@[simp] theorem applyDc_mbx (d : DcChoice) (s : State) : (applyDc d s).mbx = s.mbx := rfl
@[simp] theorem applyDc_mby (d : DcChoice) (s : State) : (applyDc d s).mby = s.mby := rfl
@[simp] theorem applyDc_mquant (d : DcChoice) (s : State) : (applyDc d s).mquant = s.mquant := rfl
@[simp] theorem applyDc_mqValid (d : DcChoice) (s : State) : (applyDc d s).mqValid = s.mqValid := rfl
@[simp] theorem applyDc_brPos (d : DcChoice) (s : State) : (applyDc d s).brPos = s.brPos := rfl
@[simp] theorem applyDc_brLen (d : DcChoice) (s : State) : (applyDc d s).brLen = s.brLen := rfl
@[simp] theorem applyDc_res0 (d : DcChoice) (s : State) : (applyDc d s).res0 = i32 d.pred := rfl
@[simp] theorem applyDc_res1 (d : DcChoice) (s : State) : (applyDc d s).res1 = s.res1 := rfl
@[simp] theorem applyDc_res2 (d : DcChoice) (s : State) : (applyDc d s).res2 = s.res2 := rfl
@[simp] theorem applyDc_dcdiff (d : DcChoice) (s : State) : (applyDc d s).dcdiff = s.dcdiff := rfl
@[simp] theorem applyDc_pdir (d : DcChoice) (s : State) : (applyDc d s).pdir = d.fromLeft := rfl
@[simp] theorem applyDc_coef (d : DcChoice) (s : State) :
    (applyDc d s).coef = setCoef s.coef 0 (d.pred + s.dcdiff.toInt) := rfl
@[simp] theorem applyDc_pmv (d : DcChoice) (s : State) : (applyDc d s).pmv = s.pmv := rfl
@[simp] theorem applyDc_mvf (d : DcChoice) (s : State) : (applyDc d s).mvf = s.mvf := rfl
@[simp] theorem applyDc_mvbk (d : DcChoice) (s : State) : (applyDc d s).mvbk = s.mvbk := rfl
@[simp] theorem applyDc_esc3LL (d : DcChoice) (s : State) : (applyDc d s).esc3LL = s.esc3LL := rfl
@[simp] theorem applyDc_esc3RL (d : DcChoice) (s : State) : (applyDc d s).esc3RL = s.esc3RL := rfl
@[simp] theorem applyDc_dcb (d : DcChoice) (s : State) : (applyDc d s).dcb = s.dcb := rfl
@[simp] theorem applyDc_acrow (d : DcChoice) (s : State) : (applyDc d s).acrow = s.acrow := rfl
@[simp] theorem applyDc_accol (d : DcChoice) (s : State) : (applyDc d s).accol = s.accol := rfl
@[simp] theorem applyDc_mvbuf (d : DcChoice) (s : State) : (applyDc d s).mvbuf = s.mvbuf := rfl
@[simp] theorem applyDc_cbpb (d : DcChoice) (s : State) : (applyDc d s).cbpb = s.cbpb := rfl
@[simp] theorem applyDc_recon (d : DcChoice) (s : State) : (applyDc d s).recon = s.recon := rfl
@[simp] theorem applyDc_cur (d : DcChoice) (s : State) : (applyDc d s).cur = s.cur := rfl
@[simp] theorem applyDc_out (d : DcChoice) (s : State) : (applyDc d s).out = s.out := rfl
@[simp] theorem applyDc_ref (d : DcChoice) (s : State) : (applyDc d s).ref = s.ref := rfl
@[simp] theorem applyDc_fwd (d : DcChoice) (s : State) : (applyDc d s).fwd = s.fwd := rfl
@[simp] theorem applyDc_bwd (d : DcChoice) (s : State) : (applyDc d s).bwd = s.bwd := rfl
@[simp] theorem applyDc_w2ref (d : DcChoice) (s : State) : (applyDc d s).w2ref = s.w2ref := rfl
@[simp] theorem applyDc_wref0 (d : DcChoice) (s : State) : (applyDc d s).wref0 = s.wref0 := rfl
@[simp] theorem applyDc_wref1 (d : DcChoice) (s : State) : (applyDc d s).wref1 = s.wref1 := rfl
@[simp] theorem applyDc_mcbuf0 (d : DcChoice) (s : State) : (applyDc d s).mcbuf0 = s.mcbuf0 := rfl
@[simp] theorem applyDc_mcbuf1 (d : DcChoice) (s : State) : (applyDc d s).mcbuf1 = s.mcbuf1 := rfl
@[simp] theorem applyDc_fstate (d : DcChoice) (s : State) : (applyDc d s).fstate = s.fstate := rfl
@[simp] theorem applyDc_prevRrf (d : DcChoice) (s : State) : (applyDc d s).prevRrf = s.prevRrf := rfl
@[simp] theorem applyDc_err (d : DcChoice) (s : State) : (applyDc d s).err = s.err := rfl
@[simp] theorem applyDc_ecode (d : DcChoice) (s : State) : (applyDc d s).ecode = s.ecode := rfl
@[simp] theorem applyDc_last (d : DcChoice) (s : State) : (applyDc d s).last = s.last := rfl
@[simp] theorem applyDc_noref (d : DcChoice) (s : State) : (applyDc d s).noref = s.noref := rfl
@[simp] theorem applyDc_skipb (d : DcChoice) (s : State) : (applyDc d s).skipb = s.skipb := rfl
@[simp] theorem applyDc_ix8 (d : DcChoice) (s : State) : (applyDc d s).ix8 = s.ix8 := rfl
@[simp] theorem applyDc_errcmd (d : DcChoice) (s : State) : (applyDc d s).errcmd = s.errcmd := rfl
@[simp] theorem applyDc_errpos (d : DcChoice) (s : State) : (applyDc d s).errpos = s.errpos := rfl
@[simp] theorem applyDc_payload (d : DcChoice) (s : State) : (applyDc d s).payload = s.payload := rfl
@[simp] theorem applyDc_payloadLen (d : DcChoice) (s : State) : (applyDc d s).payloadLen = s.payloadLen := rfl
@[simp] theorem applyDc_cmd (d : DcChoice) (s : State) : (applyDc d s).cmd = s.cmd := rfl
@[simp] theorem applyDc_port (d : DcChoice) (s : State) : (applyDc d s).port = s.port := rfl

/-! ## The writes of `PRED_STORE` (R256) -/

@[simp] theorem predStoreOf_params (b : Nat) (s : State) : (predStoreOf b s).params = s.params := rfl
@[simp] theorem predStoreOf_cfg (b : Nat) (s : State) : (predStoreOf b s).cfg = s.cfg := rfl
@[simp] theorem predStoreOf_fc (b : Nat) (s : State) : (predStoreOf b s).fc = s.fc := rfl
@[simp] theorem predStoreOf_ft (b : Nat) (s : State) : (predStoreOf b s).ft = s.ft := rfl
@[simp] theorem predStoreOf_mbw (b : Nat) (s : State) : (predStoreOf b s).mbw = s.mbw := rfl
@[simp] theorem predStoreOf_mbh (b : Nat) (s : State) : (predStoreOf b s).mbh = s.mbh := rfl
@[simp] theorem predStoreOf_mbx (b : Nat) (s : State) : (predStoreOf b s).mbx = s.mbx := rfl
@[simp] theorem predStoreOf_mby (b : Nat) (s : State) : (predStoreOf b s).mby = s.mby := rfl
@[simp] theorem predStoreOf_mquant (b : Nat) (s : State) : (predStoreOf b s).mquant = s.mquant := rfl
@[simp] theorem predStoreOf_mqValid (b : Nat) (s : State) : (predStoreOf b s).mqValid = s.mqValid := rfl
@[simp] theorem predStoreOf_brPos (b : Nat) (s : State) : (predStoreOf b s).brPos = s.brPos := rfl
@[simp] theorem predStoreOf_brLen (b : Nat) (s : State) : (predStoreOf b s).brLen = s.brLen := rfl
@[simp] theorem predStoreOf_res0 (b : Nat) (s : State) : (predStoreOf b s).res0 = s.res0 := rfl
@[simp] theorem predStoreOf_res1 (b : Nat) (s : State) : (predStoreOf b s).res1 = s.res1 := rfl
@[simp] theorem predStoreOf_res2 (b : Nat) (s : State) : (predStoreOf b s).res2 = s.res2 := rfl
@[simp] theorem predStoreOf_dcdiff (b : Nat) (s : State) : (predStoreOf b s).dcdiff = s.dcdiff := rfl
@[simp] theorem predStoreOf_pdir (b : Nat) (s : State) : (predStoreOf b s).pdir = s.pdir := rfl
@[simp] theorem predStoreOf_coef (b : Nat) (s : State) : (predStoreOf b s).coef = s.coef := rfl
@[simp] theorem predStoreOf_pmv (b : Nat) (s : State) : (predStoreOf b s).pmv = s.pmv := rfl
@[simp] theorem predStoreOf_mvf (b : Nat) (s : State) : (predStoreOf b s).mvf = s.mvf := rfl
@[simp] theorem predStoreOf_mvbk (b : Nat) (s : State) : (predStoreOf b s).mvbk = s.mvbk := rfl
@[simp] theorem predStoreOf_esc3LL (b : Nat) (s : State) : (predStoreOf b s).esc3LL = s.esc3LL := rfl
@[simp] theorem predStoreOf_esc3RL (b : Nat) (s : State) : (predStoreOf b s).esc3RL = s.esc3RL := rfl
@[simp] theorem predStoreOf_dcb (b : Nat) (s : State) :
    (predStoreOf b s).dcb = s.dcb.write (blockKey s.mbx.toNat s.mby.toNat b) (i32 (coefAt s.coef 0)) := rfl
@[simp] theorem predStoreOf_acrow (b : Nat) (s : State) :
    (predStoreOf b s).acrow = storeCache s.acrow s.mbx.toNat s.mby.toNat b (fun i => i32 (coefAt s.coef (1 + i))) 7 := rfl
@[simp] theorem predStoreOf_accol (b : Nat) (s : State) :
    (predStoreOf b s).accol = storeCache s.accol s.mbx.toNat s.mby.toNat b (fun i => i32 (coefAt s.coef (8 * (1 + i)))) 7 := rfl
@[simp] theorem predStoreOf_mvbuf (b : Nat) (s : State) : (predStoreOf b s).mvbuf = s.mvbuf := rfl
@[simp] theorem predStoreOf_cbpb (b : Nat) (s : State) : (predStoreOf b s).cbpb = s.cbpb := rfl
@[simp] theorem predStoreOf_recon (b : Nat) (s : State) : (predStoreOf b s).recon = s.recon := rfl
@[simp] theorem predStoreOf_cur (b : Nat) (s : State) : (predStoreOf b s).cur = s.cur := rfl
@[simp] theorem predStoreOf_out (b : Nat) (s : State) : (predStoreOf b s).out = s.out := rfl
@[simp] theorem predStoreOf_ref (b : Nat) (s : State) : (predStoreOf b s).ref = s.ref := rfl
@[simp] theorem predStoreOf_fwd (b : Nat) (s : State) : (predStoreOf b s).fwd = s.fwd := rfl
@[simp] theorem predStoreOf_bwd (b : Nat) (s : State) : (predStoreOf b s).bwd = s.bwd := rfl
@[simp] theorem predStoreOf_w2ref (b : Nat) (s : State) : (predStoreOf b s).w2ref = s.w2ref := rfl
@[simp] theorem predStoreOf_wref0 (b : Nat) (s : State) : (predStoreOf b s).wref0 = s.wref0 := rfl
@[simp] theorem predStoreOf_wref1 (b : Nat) (s : State) : (predStoreOf b s).wref1 = s.wref1 := rfl
@[simp] theorem predStoreOf_mcbuf0 (b : Nat) (s : State) : (predStoreOf b s).mcbuf0 = s.mcbuf0 := rfl
@[simp] theorem predStoreOf_mcbuf1 (b : Nat) (s : State) : (predStoreOf b s).mcbuf1 = s.mcbuf1 := rfl
@[simp] theorem predStoreOf_fstate (b : Nat) (s : State) : (predStoreOf b s).fstate = s.fstate := rfl
@[simp] theorem predStoreOf_prevRrf (b : Nat) (s : State) : (predStoreOf b s).prevRrf = s.prevRrf := rfl
@[simp] theorem predStoreOf_err (b : Nat) (s : State) : (predStoreOf b s).err = s.err := rfl
@[simp] theorem predStoreOf_ecode (b : Nat) (s : State) : (predStoreOf b s).ecode = s.ecode := rfl
@[simp] theorem predStoreOf_last (b : Nat) (s : State) : (predStoreOf b s).last = s.last := rfl
@[simp] theorem predStoreOf_noref (b : Nat) (s : State) : (predStoreOf b s).noref = s.noref := rfl
@[simp] theorem predStoreOf_skipb (b : Nat) (s : State) : (predStoreOf b s).skipb = s.skipb := rfl
@[simp] theorem predStoreOf_ix8 (b : Nat) (s : State) : (predStoreOf b s).ix8 = s.ix8 := rfl
@[simp] theorem predStoreOf_errcmd (b : Nat) (s : State) : (predStoreOf b s).errcmd = s.errcmd := rfl
@[simp] theorem predStoreOf_errpos (b : Nat) (s : State) : (predStoreOf b s).errpos = s.errpos := rfl
@[simp] theorem predStoreOf_payload (b : Nat) (s : State) : (predStoreOf b s).payload = s.payload := rfl
@[simp] theorem predStoreOf_payloadLen (b : Nat) (s : State) : (predStoreOf b s).payloadLen = s.payloadLen := rfl
@[simp] theorem predStoreOf_cmd (b : Nat) (s : State) : (predStoreOf b s).cmd = s.cmd := rfl
@[simp] theorem predStoreOf_port (b : Nat) (s : State) : (predStoreOf b s).port = s.port := rfl

/-! ## `ResetPictureState` (R341) -/

@[simp] theorem resetPredictors_params (v : Word) (s : State) : (resetPredictors v s).params = s.params := rfl
@[simp] theorem resetPredictors_cfg (v : Word) (s : State) : (resetPredictors v s).cfg = s.cfg := rfl
@[simp] theorem resetPredictors_fc (v : Word) (s : State) : (resetPredictors v s).fc = s.fc := rfl
@[simp] theorem resetPredictors_ft (v : Word) (s : State) : (resetPredictors v s).ft = s.ft := rfl
@[simp] theorem resetPredictors_mbw (v : Word) (s : State) : (resetPredictors v s).mbw = s.mbw := rfl
@[simp] theorem resetPredictors_mbh (v : Word) (s : State) : (resetPredictors v s).mbh = s.mbh := rfl
@[simp] theorem resetPredictors_mbx (v : Word) (s : State) : (resetPredictors v s).mbx = 0 := rfl
@[simp] theorem resetPredictors_mby (v : Word) (s : State) : (resetPredictors v s).mby = 0 := rfl
@[simp] theorem resetPredictors_mquant (v : Word) (s : State) : (resetPredictors v s).mquant = s.mquant := rfl
@[simp] theorem resetPredictors_mqValid (v : Word) (s : State) : (resetPredictors v s).mqValid = false := rfl
@[simp] theorem resetPredictors_brPos (v : Word) (s : State) : (resetPredictors v s).brPos = s.brPos := rfl
@[simp] theorem resetPredictors_brLen (v : Word) (s : State) : (resetPredictors v s).brLen = s.brLen := rfl
@[simp] theorem resetPredictors_res0 (v : Word) (s : State) : (resetPredictors v s).res0 = s.res0 := rfl
@[simp] theorem resetPredictors_res1 (v : Word) (s : State) : (resetPredictors v s).res1 = s.res1 := rfl
@[simp] theorem resetPredictors_res2 (v : Word) (s : State) : (resetPredictors v s).res2 = s.res2 := rfl
@[simp] theorem resetPredictors_dcdiff (v : Word) (s : State) : (resetPredictors v s).dcdiff = s.dcdiff := rfl
@[simp] theorem resetPredictors_pdir (v : Word) (s : State) : (resetPredictors v s).pdir = s.pdir := rfl
@[simp] theorem resetPredictors_coef (v : Word) (s : State) : (resetPredictors v s).coef = s.coef := rfl
@[simp] theorem resetPredictors_pmv (v : Word) (s : State) : (resetPredictors v s).pmv = s.pmv := rfl
@[simp] theorem resetPredictors_mvf (v : Word) (s : State) : (resetPredictors v s).mvf = s.mvf := rfl
@[simp] theorem resetPredictors_mvbk (v : Word) (s : State) : (resetPredictors v s).mvbk = s.mvbk := rfl
@[simp] theorem resetPredictors_esc3LL (v : Word) (s : State) : (resetPredictors v s).esc3LL = 0 := rfl
@[simp] theorem resetPredictors_esc3RL (v : Word) (s : State) : (resetPredictors v s).esc3RL = 0 := rfl
@[simp] theorem resetPredictors_dcb (v : Word) (s : State) : (resetPredictors v s).dcb = Grid.fresh v := rfl
@[simp] theorem resetPredictors_acrow (v : Word) (s : State) : (resetPredictors v s).acrow = Grid.fresh 0 := rfl
@[simp] theorem resetPredictors_accol (v : Word) (s : State) : (resetPredictors v s).accol = Grid.fresh 0 := rfl
@[simp] theorem resetPredictors_mvbuf (v : Word) (s : State) :
    (resetPredictors v s).mvbuf = Grid.fresh ⟨0, 0, true⟩ := rfl
@[simp] theorem resetPredictors_cbpb (v : Word) (s : State) : (resetPredictors v s).cbpb = Grid.fresh false := rfl
@[simp] theorem resetPredictors_recon (v : Word) (s : State) : (resetPredictors v s).recon = Grid.fresh false := rfl
@[simp] theorem resetPredictors_cur (v : Word) (s : State) : (resetPredictors v s).cur = s.cur := rfl
@[simp] theorem resetPredictors_out (v : Word) (s : State) : (resetPredictors v s).out = s.out := rfl
@[simp] theorem resetPredictors_ref (v : Word) (s : State) : (resetPredictors v s).ref = s.ref := rfl
@[simp] theorem resetPredictors_fwd (v : Word) (s : State) : (resetPredictors v s).fwd = s.fwd := rfl
@[simp] theorem resetPredictors_bwd (v : Word) (s : State) : (resetPredictors v s).bwd = s.bwd := rfl
@[simp] theorem resetPredictors_w2ref (v : Word) (s : State) : (resetPredictors v s).w2ref = s.w2ref := rfl
@[simp] theorem resetPredictors_wref0 (v : Word) (s : State) : (resetPredictors v s).wref0 = s.wref0 := rfl
@[simp] theorem resetPredictors_wref1 (v : Word) (s : State) : (resetPredictors v s).wref1 = s.wref1 := rfl
@[simp] theorem resetPredictors_mcbuf0 (v : Word) (s : State) : (resetPredictors v s).mcbuf0 = s.mcbuf0 := rfl
@[simp] theorem resetPredictors_mcbuf1 (v : Word) (s : State) : (resetPredictors v s).mcbuf1 = s.mcbuf1 := rfl
@[simp] theorem resetPredictors_fstate (v : Word) (s : State) : (resetPredictors v s).fstate = s.fstate := rfl
@[simp] theorem resetPredictors_prevRrf (v : Word) (s : State) : (resetPredictors v s).prevRrf = s.prevRrf := rfl
@[simp] theorem resetPredictors_err (v : Word) (s : State) : (resetPredictors v s).err = s.err := rfl
@[simp] theorem resetPredictors_ecode (v : Word) (s : State) : (resetPredictors v s).ecode = s.ecode := rfl
@[simp] theorem resetPredictors_last (v : Word) (s : State) : (resetPredictors v s).last = s.last := rfl
@[simp] theorem resetPredictors_noref (v : Word) (s : State) : (resetPredictors v s).noref = s.noref := rfl
@[simp] theorem resetPredictors_skipb (v : Word) (s : State) : (resetPredictors v s).skipb = s.skipb := rfl
@[simp] theorem resetPredictors_ix8 (v : Word) (s : State) : (resetPredictors v s).ix8 = s.ix8 := rfl
@[simp] theorem resetPredictors_errcmd (v : Word) (s : State) : (resetPredictors v s).errcmd = s.errcmd := rfl
@[simp] theorem resetPredictors_errpos (v : Word) (s : State) : (resetPredictors v s).errpos = s.errpos := rfl
@[simp] theorem resetPredictors_payload (v : Word) (s : State) : (resetPredictors v s).payload = s.payload := rfl
@[simp] theorem resetPredictors_payloadLen (v : Word) (s : State) : (resetPredictors v s).payloadLen = s.payloadLen := rfl
@[simp] theorem resetPredictors_cmd (v : Word) (s : State) : (resetPredictors v s).cmd = s.cmd := rfl
@[simp] theorem resetPredictors_port (v : Word) (s : State) : (resetPredictors v s).port = s.port := rfl

/-! ## The status that `FRAME_BEGIN` and `RESIZE` clear (R340, R352) -/

@[simp] theorem clearStatus_params (s : State) : (clearStatus s).params = s.params := rfl
@[simp] theorem clearStatus_cfg (s : State) : (clearStatus s).cfg = s.cfg := rfl
@[simp] theorem clearStatus_fc (s : State) : (clearStatus s).fc = s.fc := rfl
@[simp] theorem clearStatus_ft (s : State) : (clearStatus s).ft = s.ft := rfl
@[simp] theorem clearStatus_mbw (s : State) : (clearStatus s).mbw = s.mbw := rfl
@[simp] theorem clearStatus_mbh (s : State) : (clearStatus s).mbh = s.mbh := rfl
@[simp] theorem clearStatus_mbx (s : State) : (clearStatus s).mbx = s.mbx := rfl
@[simp] theorem clearStatus_mby (s : State) : (clearStatus s).mby = s.mby := rfl
@[simp] theorem clearStatus_mquant (s : State) : (clearStatus s).mquant = s.mquant := rfl
@[simp] theorem clearStatus_mqValid (s : State) : (clearStatus s).mqValid = s.mqValid := rfl
@[simp] theorem clearStatus_brPos (s : State) : (clearStatus s).brPos = s.brPos := rfl
@[simp] theorem clearStatus_brLen (s : State) : (clearStatus s).brLen = s.brLen := rfl
@[simp] theorem clearStatus_res0 (s : State) : (clearStatus s).res0 = s.res0 := rfl
@[simp] theorem clearStatus_res1 (s : State) : (clearStatus s).res1 = s.res1 := rfl
@[simp] theorem clearStatus_res2 (s : State) : (clearStatus s).res2 = s.res2 := rfl
@[simp] theorem clearStatus_dcdiff (s : State) : (clearStatus s).dcdiff = s.dcdiff := rfl
@[simp] theorem clearStatus_pdir (s : State) : (clearStatus s).pdir = s.pdir := rfl
@[simp] theorem clearStatus_coef (s : State) : (clearStatus s).coef = s.coef := rfl
@[simp] theorem clearStatus_pmv (s : State) : (clearStatus s).pmv = s.pmv := rfl
@[simp] theorem clearStatus_mvf (s : State) : (clearStatus s).mvf = s.mvf := rfl
@[simp] theorem clearStatus_mvbk (s : State) : (clearStatus s).mvbk = s.mvbk := rfl
@[simp] theorem clearStatus_esc3LL (s : State) : (clearStatus s).esc3LL = s.esc3LL := rfl
@[simp] theorem clearStatus_esc3RL (s : State) : (clearStatus s).esc3RL = s.esc3RL := rfl
@[simp] theorem clearStatus_dcb (s : State) : (clearStatus s).dcb = s.dcb := rfl
@[simp] theorem clearStatus_acrow (s : State) : (clearStatus s).acrow = s.acrow := rfl
@[simp] theorem clearStatus_accol (s : State) : (clearStatus s).accol = s.accol := rfl
@[simp] theorem clearStatus_mvbuf (s : State) : (clearStatus s).mvbuf = s.mvbuf := rfl
@[simp] theorem clearStatus_cbpb (s : State) : (clearStatus s).cbpb = s.cbpb := rfl
@[simp] theorem clearStatus_recon (s : State) : (clearStatus s).recon = s.recon := rfl
@[simp] theorem clearStatus_cur (s : State) : (clearStatus s).cur = s.cur := rfl
@[simp] theorem clearStatus_out (s : State) : (clearStatus s).out = s.out := rfl
@[simp] theorem clearStatus_ref (s : State) : (clearStatus s).ref = s.ref := rfl
@[simp] theorem clearStatus_fwd (s : State) : (clearStatus s).fwd = s.fwd := rfl
@[simp] theorem clearStatus_bwd (s : State) : (clearStatus s).bwd = s.bwd := rfl
@[simp] theorem clearStatus_w2ref (s : State) : (clearStatus s).w2ref = s.w2ref := rfl
@[simp] theorem clearStatus_wref0 (s : State) : (clearStatus s).wref0 = s.wref0 := rfl
@[simp] theorem clearStatus_wref1 (s : State) : (clearStatus s).wref1 = s.wref1 := rfl
@[simp] theorem clearStatus_mcbuf0 (s : State) : (clearStatus s).mcbuf0 = s.mcbuf0 := rfl
@[simp] theorem clearStatus_mcbuf1 (s : State) : (clearStatus s).mcbuf1 = s.mcbuf1 := rfl
@[simp] theorem clearStatus_fstate (s : State) : (clearStatus s).fstate = .idle := rfl
@[simp] theorem clearStatus_prevRrf (s : State) : (clearStatus s).prevRrf = s.prevRrf := rfl
@[simp] theorem clearStatus_err (s : State) : (clearStatus s).err = false := rfl
@[simp] theorem clearStatus_ecode (s : State) : (clearStatus s).ecode = 0 := rfl
@[simp] theorem clearStatus_last (s : State) : (clearStatus s).last = s.last := rfl
@[simp] theorem clearStatus_noref (s : State) : (clearStatus s).noref = false := rfl
@[simp] theorem clearStatus_skipb (s : State) : (clearStatus s).skipb = false := rfl
@[simp] theorem clearStatus_ix8 (s : State) : (clearStatus s).ix8 = false := rfl
@[simp] theorem clearStatus_errcmd (s : State) : (clearStatus s).errcmd = 0 := rfl
@[simp] theorem clearStatus_errpos (s : State) : (clearStatus s).errpos = 0 := rfl
@[simp] theorem clearStatus_payload (s : State) : (clearStatus s).payload = s.payload := rfl
@[simp] theorem clearStatus_payloadLen (s : State) : (clearStatus s).payloadLen = s.payloadLen := rfl
@[simp] theorem clearStatus_cmd (s : State) : (clearStatus s).cmd = s.cmd := rfl
@[simp] theorem clearStatus_port (s : State) : (clearStatus s).port = s.port := rfl

/-! ## `RESIZE` (R352) -/

@[simp] theorem resizeOf_params (w h : BitVec 12) (s : State) : (resizeOf w h s).params = s.params := rfl
@[simp] theorem resizeOf_cfg (w h : BitVec 12) (s : State) : (resizeOf w h s).cfg = s.cfg := rfl
@[simp] theorem resizeOf_fc (w h : BitVec 12) (s : State) : (resizeOf w h s).fc = s.fc := rfl
@[simp] theorem resizeOf_ft (w h : BitVec 12) (s : State) : (resizeOf w h s).ft = s.ft := rfl
@[simp] theorem resizeOf_mbw (w h : BitVec 12) (s : State) : (resizeOf w h s).mbw = w := rfl
@[simp] theorem resizeOf_mbh (w h : BitVec 12) (s : State) : (resizeOf w h s).mbh = h := rfl
@[simp] theorem resizeOf_mbx (w h : BitVec 12) (s : State) : (resizeOf w h s).mbx = 0 := rfl
@[simp] theorem resizeOf_mby (w h : BitVec 12) (s : State) : (resizeOf w h s).mby = 0 := rfl
@[simp] theorem resizeOf_mquant (w h : BitVec 12) (s : State) : (resizeOf w h s).mquant = s.mquant := rfl
@[simp] theorem resizeOf_mqValid (w h : BitVec 12) (s : State) : (resizeOf w h s).mqValid = false := rfl
@[simp] theorem resizeOf_brPos (w h : BitVec 12) (s : State) : (resizeOf w h s).brPos = s.brPos := rfl
@[simp] theorem resizeOf_brLen (w h : BitVec 12) (s : State) : (resizeOf w h s).brLen = s.brLen := rfl
@[simp] theorem resizeOf_res0 (w h : BitVec 12) (s : State) : (resizeOf w h s).res0 = s.res0 := rfl
@[simp] theorem resizeOf_res1 (w h : BitVec 12) (s : State) : (resizeOf w h s).res1 = s.res1 := rfl
@[simp] theorem resizeOf_res2 (w h : BitVec 12) (s : State) : (resizeOf w h s).res2 = s.res2 := rfl
@[simp] theorem resizeOf_dcdiff (w h : BitVec 12) (s : State) : (resizeOf w h s).dcdiff = s.dcdiff := rfl
@[simp] theorem resizeOf_pdir (w h : BitVec 12) (s : State) : (resizeOf w h s).pdir = s.pdir := rfl
@[simp] theorem resizeOf_coef (w h : BitVec 12) (s : State) : (resizeOf w h s).coef = s.coef := rfl
@[simp] theorem resizeOf_pmv (w h : BitVec 12) (s : State) : (resizeOf w h s).pmv = s.pmv := rfl
@[simp] theorem resizeOf_mvf (w h : BitVec 12) (s : State) : (resizeOf w h s).mvf = s.mvf := rfl
@[simp] theorem resizeOf_mvbk (w h : BitVec 12) (s : State) : (resizeOf w h s).mvbk = s.mvbk := rfl
@[simp] theorem resizeOf_esc3LL (w h : BitVec 12) (s : State) : (resizeOf w h s).esc3LL = 0 := rfl
@[simp] theorem resizeOf_esc3RL (w h : BitVec 12) (s : State) : (resizeOf w h s).esc3RL = 0 := rfl
@[simp] theorem resizeOf_dcb (w h : BitVec 12) (s : State) :
    (resizeOf w h s).dcb = Grid.fresh (sentinelOf s.params (cfgCodec s)) := rfl
@[simp] theorem resizeOf_acrow (w h : BitVec 12) (s : State) : (resizeOf w h s).acrow = Grid.fresh 0 := rfl
@[simp] theorem resizeOf_accol (w h : BitVec 12) (s : State) : (resizeOf w h s).accol = Grid.fresh 0 := rfl
@[simp] theorem resizeOf_mvbuf (w h : BitVec 12) (s : State) :
    (resizeOf w h s).mvbuf = Grid.fresh ⟨0, 0, true⟩ := rfl
@[simp] theorem resizeOf_cbpb (w h : BitVec 12) (s : State) : (resizeOf w h s).cbpb = Grid.fresh false := rfl
@[simp] theorem resizeOf_recon (w h : BitVec 12) (s : State) : (resizeOf w h s).recon = Grid.fresh false := rfl
@[simp] theorem resizeOf_cur (w h : BitVec 12) (s : State) : (resizeOf w h s).cur = none := rfl
@[simp] theorem resizeOf_out (w h : BitVec 12) (s : State) : (resizeOf w h s).out = none := rfl
@[simp] theorem resizeOf_ref (w h : BitVec 12) (s : State) : (resizeOf w h s).ref = none := rfl
@[simp] theorem resizeOf_fwd (w h : BitVec 12) (s : State) : (resizeOf w h s).fwd = none := rfl
@[simp] theorem resizeOf_bwd (w h : BitVec 12) (s : State) : (resizeOf w h s).bwd = none := rfl
@[simp] theorem resizeOf_w2ref (w h : BitVec 12) (s : State) : (resizeOf w h s).w2ref = none := rfl
@[simp] theorem resizeOf_wref0 (w h : BitVec 12) (s : State) : (resizeOf w h s).wref0 = none := rfl
@[simp] theorem resizeOf_wref1 (w h : BitVec 12) (s : State) : (resizeOf w h s).wref1 = none := rfl
@[simp] theorem resizeOf_mcbuf0 (w h : BitVec 12) (s : State) : (resizeOf w h s).mcbuf0 = s.mcbuf0 := rfl
@[simp] theorem resizeOf_mcbuf1 (w h : BitVec 12) (s : State) : (resizeOf w h s).mcbuf1 = s.mcbuf1 := rfl
@[simp] theorem resizeOf_fstate (w h : BitVec 12) (s : State) : (resizeOf w h s).fstate = .idle := rfl
@[simp] theorem resizeOf_prevRrf (w h : BitVec 12) (s : State) : (resizeOf w h s).prevRrf = false := rfl
@[simp] theorem resizeOf_err (w h : BitVec 12) (s : State) : (resizeOf w h s).err = false := rfl
@[simp] theorem resizeOf_ecode (w h : BitVec 12) (s : State) : (resizeOf w h s).ecode = 0 := rfl
@[simp] theorem resizeOf_last (w h : BitVec 12) (s : State) : (resizeOf w h s).last = s.last := rfl
@[simp] theorem resizeOf_noref (w h : BitVec 12) (s : State) : (resizeOf w h s).noref = false := rfl
@[simp] theorem resizeOf_skipb (w h : BitVec 12) (s : State) : (resizeOf w h s).skipb = false := rfl
@[simp] theorem resizeOf_ix8 (w h : BitVec 12) (s : State) : (resizeOf w h s).ix8 = false := rfl
@[simp] theorem resizeOf_errcmd (w h : BitVec 12) (s : State) : (resizeOf w h s).errcmd = 0 := rfl
@[simp] theorem resizeOf_errpos (w h : BitVec 12) (s : State) : (resizeOf w h s).errpos = 0 := rfl
@[simp] theorem resizeOf_payload (w h : BitVec 12) (s : State) : (resizeOf w h s).payload = s.payload := rfl
@[simp] theorem resizeOf_payloadLen (w h : BitVec 12) (s : State) : (resizeOf w h s).payloadLen = s.payloadLen := rfl
@[simp] theorem resizeOf_cmd (w h : BitVec 12) (s : State) : (resizeOf w h s).cmd = s.cmd := rfl
@[simp] theorem resizeOf_port (w h : BitVec 12) (s : State) : (resizeOf w h s).port = s.port := rfl

/-! ## A frame opened or suppressed (R341) -/

@[simp] theorem openWith_params (f : FState) (c w0 w1 : Option Frame) (s : State) : (openWith f c w0 w1 s).params = s.params := rfl
@[simp] theorem openWith_cfg (f : FState) (c w0 w1 : Option Frame) (s : State) : (openWith f c w0 w1 s).cfg = s.cfg := rfl
@[simp] theorem openWith_fc (f : FState) (c w0 w1 : Option Frame) (s : State) : (openWith f c w0 w1 s).fc = s.fc := rfl
@[simp] theorem openWith_ft (f : FState) (c w0 w1 : Option Frame) (s : State) : (openWith f c w0 w1 s).ft = s.ft := rfl
@[simp] theorem openWith_mbw (f : FState) (c w0 w1 : Option Frame) (s : State) : (openWith f c w0 w1 s).mbw = s.mbw := rfl
@[simp] theorem openWith_mbh (f : FState) (c w0 w1 : Option Frame) (s : State) : (openWith f c w0 w1 s).mbh = s.mbh := rfl
@[simp] theorem openWith_mbx (f : FState) (c w0 w1 : Option Frame) (s : State) : (openWith f c w0 w1 s).mbx = s.mbx := rfl
@[simp] theorem openWith_mby (f : FState) (c w0 w1 : Option Frame) (s : State) : (openWith f c w0 w1 s).mby = s.mby := rfl
@[simp] theorem openWith_mquant (f : FState) (c w0 w1 : Option Frame) (s : State) : (openWith f c w0 w1 s).mquant = s.mquant := rfl
@[simp] theorem openWith_mqValid (f : FState) (c w0 w1 : Option Frame) (s : State) : (openWith f c w0 w1 s).mqValid = s.mqValid := rfl
@[simp] theorem openWith_brPos (f : FState) (c w0 w1 : Option Frame) (s : State) : (openWith f c w0 w1 s).brPos = s.brPos := rfl
@[simp] theorem openWith_brLen (f : FState) (c w0 w1 : Option Frame) (s : State) : (openWith f c w0 w1 s).brLen = s.brLen := rfl
@[simp] theorem openWith_res0 (f : FState) (c w0 w1 : Option Frame) (s : State) : (openWith f c w0 w1 s).res0 = s.res0 := rfl
@[simp] theorem openWith_res1 (f : FState) (c w0 w1 : Option Frame) (s : State) : (openWith f c w0 w1 s).res1 = s.res1 := rfl
@[simp] theorem openWith_res2 (f : FState) (c w0 w1 : Option Frame) (s : State) : (openWith f c w0 w1 s).res2 = s.res2 := rfl
@[simp] theorem openWith_dcdiff (f : FState) (c w0 w1 : Option Frame) (s : State) : (openWith f c w0 w1 s).dcdiff = s.dcdiff := rfl
@[simp] theorem openWith_pdir (f : FState) (c w0 w1 : Option Frame) (s : State) : (openWith f c w0 w1 s).pdir = s.pdir := rfl
@[simp] theorem openWith_coef (f : FState) (c w0 w1 : Option Frame) (s : State) : (openWith f c w0 w1 s).coef = s.coef := rfl
@[simp] theorem openWith_pmv (f : FState) (c w0 w1 : Option Frame) (s : State) : (openWith f c w0 w1 s).pmv = s.pmv := rfl
@[simp] theorem openWith_mvf (f : FState) (c w0 w1 : Option Frame) (s : State) : (openWith f c w0 w1 s).mvf = s.mvf := rfl
@[simp] theorem openWith_mvbk (f : FState) (c w0 w1 : Option Frame) (s : State) : (openWith f c w0 w1 s).mvbk = s.mvbk := rfl
@[simp] theorem openWith_esc3LL (f : FState) (c w0 w1 : Option Frame) (s : State) : (openWith f c w0 w1 s).esc3LL = s.esc3LL := rfl
@[simp] theorem openWith_esc3RL (f : FState) (c w0 w1 : Option Frame) (s : State) : (openWith f c w0 w1 s).esc3RL = s.esc3RL := rfl
@[simp] theorem openWith_dcb (f : FState) (c w0 w1 : Option Frame) (s : State) : (openWith f c w0 w1 s).dcb = s.dcb := rfl
@[simp] theorem openWith_acrow (f : FState) (c w0 w1 : Option Frame) (s : State) : (openWith f c w0 w1 s).acrow = s.acrow := rfl
@[simp] theorem openWith_accol (f : FState) (c w0 w1 : Option Frame) (s : State) : (openWith f c w0 w1 s).accol = s.accol := rfl
@[simp] theorem openWith_mvbuf (f : FState) (c w0 w1 : Option Frame) (s : State) : (openWith f c w0 w1 s).mvbuf = s.mvbuf := rfl
@[simp] theorem openWith_cbpb (f : FState) (c w0 w1 : Option Frame) (s : State) : (openWith f c w0 w1 s).cbpb = s.cbpb := rfl
@[simp] theorem openWith_recon (f : FState) (c w0 w1 : Option Frame) (s : State) : (openWith f c w0 w1 s).recon = s.recon := rfl
@[simp] theorem openWith_cur (f : FState) (c w0 w1 : Option Frame) (s : State) : (openWith f c w0 w1 s).cur = c := rfl
@[simp] theorem openWith_out (f : FState) (c w0 w1 : Option Frame) (s : State) : (openWith f c w0 w1 s).out = s.out := rfl
@[simp] theorem openWith_ref (f : FState) (c w0 w1 : Option Frame) (s : State) : (openWith f c w0 w1 s).ref = s.ref := rfl
@[simp] theorem openWith_fwd (f : FState) (c w0 w1 : Option Frame) (s : State) : (openWith f c w0 w1 s).fwd = s.fwd := rfl
@[simp] theorem openWith_bwd (f : FState) (c w0 w1 : Option Frame) (s : State) : (openWith f c w0 w1 s).bwd = s.bwd := rfl
@[simp] theorem openWith_w2ref (f : FState) (c w0 w1 : Option Frame) (s : State) : (openWith f c w0 w1 s).w2ref = s.w2ref := rfl
@[simp] theorem openWith_wref0 (f : FState) (c w0 w1 : Option Frame) (s : State) : (openWith f c w0 w1 s).wref0 = w0 := rfl
@[simp] theorem openWith_wref1 (f : FState) (c w0 w1 : Option Frame) (s : State) : (openWith f c w0 w1 s).wref1 = w1 := rfl
@[simp] theorem openWith_mcbuf0 (f : FState) (c w0 w1 : Option Frame) (s : State) : (openWith f c w0 w1 s).mcbuf0 = s.mcbuf0 := rfl
@[simp] theorem openWith_mcbuf1 (f : FState) (c w0 w1 : Option Frame) (s : State) : (openWith f c w0 w1 s).mcbuf1 = s.mcbuf1 := rfl
@[simp] theorem openWith_fstate (f : FState) (c w0 w1 : Option Frame) (s : State) : (openWith f c w0 w1 s).fstate = f := rfl
@[simp] theorem openWith_prevRrf (f : FState) (c w0 w1 : Option Frame) (s : State) : (openWith f c w0 w1 s).prevRrf = s.prevRrf := rfl
@[simp] theorem openWith_err (f : FState) (c w0 w1 : Option Frame) (s : State) : (openWith f c w0 w1 s).err = s.err := rfl
@[simp] theorem openWith_ecode (f : FState) (c w0 w1 : Option Frame) (s : State) : (openWith f c w0 w1 s).ecode = s.ecode := rfl
@[simp] theorem openWith_last (f : FState) (c w0 w1 : Option Frame) (s : State) : (openWith f c w0 w1 s).last = s.last := rfl
@[simp] theorem openWith_noref (f : FState) (c w0 w1 : Option Frame) (s : State) : (openWith f c w0 w1 s).noref = s.noref := rfl
@[simp] theorem openWith_skipb (f : FState) (c w0 w1 : Option Frame) (s : State) : (openWith f c w0 w1 s).skipb = s.skipb := rfl
@[simp] theorem openWith_ix8 (f : FState) (c w0 w1 : Option Frame) (s : State) : (openWith f c w0 w1 s).ix8 = s.ix8 := rfl
@[simp] theorem openWith_errcmd (f : FState) (c w0 w1 : Option Frame) (s : State) : (openWith f c w0 w1 s).errcmd = s.errcmd := rfl
@[simp] theorem openWith_errpos (f : FState) (c w0 w1 : Option Frame) (s : State) : (openWith f c w0 w1 s).errpos = s.errpos := rfl
@[simp] theorem openWith_payload (f : FState) (c w0 w1 : Option Frame) (s : State) : (openWith f c w0 w1 s).payload = s.payload := rfl
@[simp] theorem openWith_payloadLen (f : FState) (c w0 w1 : Option Frame) (s : State) : (openWith f c w0 w1 s).payloadLen = s.payloadLen := rfl
@[simp] theorem openWith_cmd (f : FState) (c w0 w1 : Option Frame) (s : State) : (openWith f c w0 w1 s).cmd = s.cmd := rfl
@[simp] theorem openWith_port (f : FState) (c w0 w1 : Option Frame) (s : State) : (openWith f c w0 w1 s).port = s.port := rfl

/-! ## A frame closed (R346) -/

@[simp] theorem closeFrame_params (s : State) : (closeFrame s).params = s.params := rfl
@[simp] theorem closeFrame_cfg (s : State) : (closeFrame s).cfg = s.cfg := rfl
@[simp] theorem closeFrame_fc (s : State) : (closeFrame s).fc = s.fc := rfl
@[simp] theorem closeFrame_ft (s : State) : (closeFrame s).ft = s.ft := rfl
@[simp] theorem closeFrame_mbw (s : State) : (closeFrame s).mbw = s.mbw := rfl
@[simp] theorem closeFrame_mbh (s : State) : (closeFrame s).mbh = s.mbh := rfl
@[simp] theorem closeFrame_mbx (s : State) : (closeFrame s).mbx = s.mbx := rfl
@[simp] theorem closeFrame_mby (s : State) : (closeFrame s).mby = s.mby := rfl
@[simp] theorem closeFrame_mquant (s : State) : (closeFrame s).mquant = s.mquant := rfl
@[simp] theorem closeFrame_mqValid (s : State) : (closeFrame s).mqValid = s.mqValid := rfl
@[simp] theorem closeFrame_brPos (s : State) : (closeFrame s).brPos = s.brPos := rfl
@[simp] theorem closeFrame_brLen (s : State) : (closeFrame s).brLen = s.brLen := rfl
@[simp] theorem closeFrame_res0 (s : State) : (closeFrame s).res0 = s.res0 := rfl
@[simp] theorem closeFrame_res1 (s : State) : (closeFrame s).res1 = s.res1 := rfl
@[simp] theorem closeFrame_res2 (s : State) : (closeFrame s).res2 = s.res2 := rfl
@[simp] theorem closeFrame_dcdiff (s : State) : (closeFrame s).dcdiff = s.dcdiff := rfl
@[simp] theorem closeFrame_pdir (s : State) : (closeFrame s).pdir = s.pdir := rfl
@[simp] theorem closeFrame_coef (s : State) : (closeFrame s).coef = s.coef := rfl
@[simp] theorem closeFrame_pmv (s : State) : (closeFrame s).pmv = s.pmv := rfl
@[simp] theorem closeFrame_mvf (s : State) : (closeFrame s).mvf = s.mvf := rfl
@[simp] theorem closeFrame_mvbk (s : State) : (closeFrame s).mvbk = s.mvbk := rfl
@[simp] theorem closeFrame_esc3LL (s : State) : (closeFrame s).esc3LL = s.esc3LL := rfl
@[simp] theorem closeFrame_esc3RL (s : State) : (closeFrame s).esc3RL = s.esc3RL := rfl
@[simp] theorem closeFrame_dcb (s : State) : (closeFrame s).dcb = s.dcb := rfl
@[simp] theorem closeFrame_acrow (s : State) : (closeFrame s).acrow = s.acrow := rfl
@[simp] theorem closeFrame_accol (s : State) : (closeFrame s).accol = s.accol := rfl
@[simp] theorem closeFrame_mvbuf (s : State) : (closeFrame s).mvbuf = s.mvbuf := rfl
@[simp] theorem closeFrame_cbpb (s : State) : (closeFrame s).cbpb = s.cbpb := rfl
@[simp] theorem closeFrame_recon (s : State) : (closeFrame s).recon = s.recon := rfl
@[simp] theorem closeFrame_cur (s : State) : (closeFrame s).cur = none := rfl
@[simp] theorem closeFrame_out (s : State) : (closeFrame s).out = s.out := rfl
@[simp] theorem closeFrame_ref (s : State) : (closeFrame s).ref = s.ref := rfl
@[simp] theorem closeFrame_fwd (s : State) : (closeFrame s).fwd = s.fwd := rfl
@[simp] theorem closeFrame_bwd (s : State) : (closeFrame s).bwd = s.bwd := rfl
@[simp] theorem closeFrame_w2ref (s : State) : (closeFrame s).w2ref = s.w2ref := rfl
@[simp] theorem closeFrame_wref0 (s : State) : (closeFrame s).wref0 = none := rfl
@[simp] theorem closeFrame_wref1 (s : State) : (closeFrame s).wref1 = none := rfl
@[simp] theorem closeFrame_mcbuf0 (s : State) : (closeFrame s).mcbuf0 = s.mcbuf0 := rfl
@[simp] theorem closeFrame_mcbuf1 (s : State) : (closeFrame s).mcbuf1 = s.mcbuf1 := rfl
@[simp] theorem closeFrame_fstate (s : State) : (closeFrame s).fstate = .idle := rfl
@[simp] theorem closeFrame_prevRrf (s : State) : (closeFrame s).prevRrf = s.prevRrf := rfl
@[simp] theorem closeFrame_err (s : State) : (closeFrame s).err = s.err := rfl
@[simp] theorem closeFrame_ecode (s : State) : (closeFrame s).ecode = s.ecode := rfl
@[simp] theorem closeFrame_last (s : State) : (closeFrame s).last = s.last := rfl
@[simp] theorem closeFrame_noref (s : State) : (closeFrame s).noref = s.noref := rfl
@[simp] theorem closeFrame_skipb (s : State) : (closeFrame s).skipb = s.skipb := rfl
@[simp] theorem closeFrame_ix8 (s : State) : (closeFrame s).ix8 = s.ix8 := rfl
@[simp] theorem closeFrame_errcmd (s : State) : (closeFrame s).errcmd = s.errcmd := rfl
@[simp] theorem closeFrame_errpos (s : State) : (closeFrame s).errpos = s.errpos := rfl
@[simp] theorem closeFrame_payload (s : State) : (closeFrame s).payload = s.payload := rfl
@[simp] theorem closeFrame_payloadLen (s : State) : (closeFrame s).payloadLen = s.payloadLen := rfl
@[simp] theorem closeFrame_cmd (s : State) : (closeFrame s).cmd = s.cmd := rfl
@[simp] theorem closeFrame_port (s : State) : (closeFrame s).port = s.port := rfl

end Sys2Proof.Machine
end

