-- ==== Sys2Proof/Laws/Ops.lean ====
section
/-! SUPPORT. What each shared operation can do, said once: running a rule, its sequencing, the bit
reader, the preconditions, and the relation `Keeps` by which a fact about every step of a rule becomes
a fact about the rule. -/

namespace Sys2Proof.Machine

variable {α β : Type}

/-! ## Running a rule -/

@[simp] theorem finish_ok {m : Engine Unit} {s t : State} {u : Unit} (h : m s = .ok u t) :
    finish m s = .next t := by simp [finish, h]

@[simp] theorem finish_error {m : Engine Unit} {s t : State} {e : ErrCode} (h : m s = .error e t) :
    finish m s = .next (raise e t) := by simp [finish, h]

/-- A rule run to its end or to its `raise` always leaves a next state. -/
theorem finish_cases (m : Engine Unit) (s : State) :
    (∃ t, m s = .ok () t ∧ finish m s = .next t)
      ∨ ∃ e t, m s = .error e t ∧ finish m s = .next (raise e t) := by
  cases h : m s with
  | ok u t => exact .inl ⟨t, rfl, finish_ok h⟩
  | error e t => exact .inr ⟨e, t, rfl, finish_error h⟩

/-- A command is without effect while an error is recorded (R381). -/
theorem command_of_err {rule : Option (Engine Unit)} {s : State} (h : s.err = true) :
    command rule s = .next s := by simp [command, h]

/-- With no error recorded a legal command runs its rule. -/
theorem command_some {m : Engine Unit} {s : State} (h : s.err = false) :
    command (some m) s = finish m s := by simp [command, always, h]

/-- With no error recorded an illegal command raises `E_BAD_CMD` (R102). -/
theorem command_none {s : State} (h : s.err = false) : command none s = .next (raise .badCmd s) := by
  simp [command, always, h]

@[simp] theorem always_some (m : Engine Unit) (s : State) : always (some m) s = finish m s := rfl

@[simp] theorem always_none (s : State) : always none s = .next (raise .badCmd s) := rfl

@[simp] theorem legalWhen_true (m : Engine Unit) : legalWhen true m = some m := rfl

@[simp] theorem legalWhen_false (m : Engine Unit) : legalWhen false m = none := rfl

/-! ## Sequencing -/

@[simp] theorem update_run (f : State → State) (s : State) : update f s = .ok () (f s) := rfl

@[simp] theorem look_run (f : State → α) (s : State) : look f s = .ok (f s) s := rfl

@[simp] theorem fail_run (e : ErrCode) (s : State) : (fail e : Engine α) s = .error e s := rfl

@[simp] theorem pure_run (a : α) (s : State) : (pure a : Engine α) s = .ok a s := rfl

@[simp] theorem readBits_run (n : Nat) (s : State) : readBits n s = .ok (peekBits s n) (skipBits n s) := rfl

@[simp] theorem readBit_run (s : State) : readBit s = .ok (peekBits s 1 == 1) (skipBits 1 s) := rfl

theorem bind_run (m : Engine α) (f : α → Engine β) (s : State) :
    (m >>= f) s = match m s with
      | .ok a t => f a t
      | .error e t => .error e t := by
  show EStateM.bind m f s = _
  unfold EStateM.bind
  cases m s <;> rfl

@[simp] theorem bind_ok {m : Engine α} {f : α → Engine β} {s t : State} {a : α} (h : m s = .ok a t) :
    (m >>= f) s = f a t := by rw [bind_run, h]

@[simp] theorem bind_error {m : Engine α} {f : α → Engine β} {s t : State} {e : ErrCode}
    (h : m s = .error e t) : (m >>= f) s = .error e t := by rw [bind_run, h]

/-- A sequence that ends well ended well in both parts. -/
theorem bind_eq_ok {m : Engine α} {f : α → Engine β} {s u : State} {b : β}
    (h : (m >>= f) s = .ok b u) : ∃ a t, m s = .ok a t ∧ f a t = .ok b u := by
  rw [bind_run] at h
  cases hm : m s with
  | ok a t => rw [hm] at h; exact ⟨a, t, rfl, h⟩
  | error e t => rw [hm] at h; cases h

/-! ## Preconditions -/

theorem needPicture_ok {s : State} (h : s.mbw ≠ 0) : needPicture s = .ok () s := if_neg h

theorem needPicture_error {s : State} (h : s.mbw = 0) : needPicture s = .error .seq s := if_pos h

/-- An open frame's pixel command runs its rule with `CUR`. -/
theorem pixelCommand_opened {rule : Frame → Engine Unit} {s : State} {f : Frame}
    (h : s.fstate = .opened) (hc : s.cur = some f) : pixelCommand rule s = rule f s := by
  simp [pixelCommand, h, hc]

/-- A suppressed frame's pixel command does nothing (R342). -/
theorem pixelCommand_suppressed {rule : Frame → Engine Unit} {s : State} {k : Suppress}
    (h : s.fstate = .suppressed k) : pixelCommand rule s = .ok () s := by
  simp [pixelCommand, h]

/-- With no frame open a pixel command raises `E_SEQ` (R229). -/
theorem pixelCommand_idle {rule : Frame → Engine Unit} {s : State} (h : s.fstate = .idle) :
    pixelCommand rule s = .error .seq s := by
  simp [pixelCommand, h]

/-! ## Facts that every step of a rule keeps -/

/-- However `m` ends, its final state is related to its first by `R`. -/
def Keeps (R : State → State → Prop) (m : Engine α) : Prop :=
  ∀ s, (∀ a t, m s = .ok a t → R s t) ∧ ∀ e t, m s = .error e t → R s t

variable {R : State → State → Prop}

/-- A sequence keeps what its parts keep, where the second part may rest on what the first one's result
satisfies. -/
theorem keeps_bind_of (trans : ∀ a b c, R a b → R b c → R a c) {m : Engine α} {f : α → Engine β}
    {P : α → Prop} (hm : Keeps R m) (hP : ∀ s a t, m s = .ok a t → P a)
    (hf : ∀ a, P a → Keeps R (f a)) : Keeps R (m >>= f) := by
  intro s
  cases h : m s with
  | ok a t =>
    have h1 := (hm s).1 a t h
    have h2 := hf a (hP s a t h) t
    simp only [bind_ok h]
    exact ⟨fun b u hu => trans _ _ _ h1 (h2.1 b u hu), fun e u hu => trans _ _ _ h1 (h2.2 e u hu)⟩
  | error e t =>
    have h1 := (hm s).2 e t h
    simp only [bind_error h]
    refine ⟨fun b u hu => (by cases hu), fun e u hu => ?_⟩
    cases hu; exact h1

theorem keeps_bind (trans : ∀ a b c, R a b → R b c → R a c) {m : Engine α} {f : α → Engine β}
    (hm : Keeps R m) (hf : ∀ a, Keeps R (f a)) : Keeps R (m >>= f) :=
  keeps_bind_of trans (P := fun _ => True) hm (fun _ _ _ _ => trivial) fun a _ => hf a

theorem keeps_update {f : State → State} (h : ∀ s, R s (f s)) : Keeps R (update f) := by
  intro s
  refine ⟨fun a t ht => ?_, fun e t ht => by cases ht⟩
  cases ht; exact h s

theorem keeps_look (refl : ∀ s, R s s) (f : State → α) : Keeps R (look f) := by
  intro s
  refine ⟨fun a t ht => ?_, fun e t ht => by cases ht⟩
  cases ht; exact refl s

theorem keeps_pure (refl : ∀ s, R s s) (a : α) : Keeps R (pure a : Engine α) := by
  intro s
  refine ⟨fun a t ht => ?_, fun e t ht => by cases ht⟩
  cases ht; exact refl s

theorem keeps_fail (refl : ∀ s, R s s) (e : ErrCode) : Keeps R (fail e : Engine α) := by
  intro s
  refine ⟨fun a t ht => (by cases ht), fun e t ht => ?_⟩
  cases ht; exact refl s

theorem keeps_readBits (skip : ∀ n s, R s (skipBits n s)) (n : Nat) : Keeps R (readBits n) := by
  intro s
  refine ⟨fun a t ht => ?_, fun e t ht => by cases ht⟩
  cases ht; exact skip n s

theorem keeps_readBit (skip : ∀ n s, R s (skipBits n s)) : Keeps R readBit := by
  intro s
  refine ⟨fun a t ht => ?_, fun e t ht => by cases ht⟩
  cases ht; exact skip 1 s

theorem keeps_needPicture (refl : ∀ s, R s s) : Keeps R needPicture := by
  intro s
  unfold needPicture
  split
  · exact ⟨fun a t ht => (by cases ht), fun e t ht => (by cases ht; exact refl s)⟩
  · exact ⟨fun a t ht => (by cases ht; exact refl s), fun e t ht => by cases ht⟩

/-- A pixel command keeps what its rule keeps when it is run on the frame in `CUR`. -/
theorem keeps_pixelCommand (refl : ∀ s, R s s) {rule : Frame → Engine Unit}
    (h : ∀ f s, s.cur = some f →
      (∀ a t, rule f s = .ok a t → R s t) ∧ ∀ e t, rule f s = .error e t → R s t) :
    Keeps R (pixelCommand rule) := by
  intro s
  unfold pixelCommand
  split
  · exact ⟨fun a t ht => (by cases ht; exact refl s), fun e t ht => by cases ht⟩
  · rename_i f _ hc; exact h f s hc
  all_goals exact ⟨fun a t ht => (by cases ht), fun e t ht => (by cases ht; exact refl s)⟩

/-- What a command that obeys R381 can do: nothing, or its rule to the end, or its rule up to a
`raise`. -/
theorem command_cases {rule : Option (Engine Unit)} {s : State}
    (h : ∀ m, rule = some m → Keeps R m) (refl : ∀ s, R s s) :
    ∃ u, R s u ∧ (command rule s = .next u ∨ ∃ e, s.err = false ∧ command rule s = .next (raise e u)) := by
  cases he : s.err with
  | true => exact ⟨s, refl s, .inl (command_of_err he)⟩
  | false =>
    cases rule with
    | none => exact ⟨s, refl s, .inr ⟨_, rfl, command_none he⟩⟩
    | some m =>
      rw [command_some he]
      rcases finish_cases m s with ⟨t, hm, ht⟩ | ⟨e, t, hm, ht⟩
      · exact ⟨t, (h m rfl s).1 _ _ hm, .inl ht⟩
      · exact ⟨t, (h m rfl s).2 _ _ hm, .inr ⟨e, rfl, ht⟩⟩

end Sys2Proof.Machine
end

