-- ==== Sys2Proof/Laws/FrameControl.lean ====
section
/-! SUPPORT. What the frame-control commands can do, said once: the ways `FRAME_BEGIN` can end, the slots
`OpenByType` fills, and the ways `FRAME_END` can end (48_frame_control.md R340, R341, R346, R347). -/

namespace Sys2Proof.Machine

/-! ## The shapes of frames -/

/-- A frame made from another one sample by sample: all its samples, the same size. -/
def SameShape (g f : Frame) : Prop := g.wf ∧ g.mbw = f.mbw ∧ g.mbh = f.mbh

theorem SameShape.trans {a b c : Frame} (h : SameShape a b) (k : SameShape b c) : SameShape a c :=
  ⟨h.1, h.2.1.trans k.2.1, h.2.2.trans k.2.2⟩

theorem mapPix_shape (f : Frame) (g : PlaneId → Nat → Nat → Byte → Byte) : SameShape (f.mapPix g) f :=
  ⟨Frame.wf_mapPix _ _, rfl, rfl⟩

theorem adjFrame_shape (s : State) (f : Frame) : SameShape (adjFrame s f) f := by
  unfold adjFrame; exact mapPix_shape _ _

theorem freshFrame_shape (s : State) :
    (freshFrame s).wf ∧ (freshFrame s).mbw = s.mbw ∧ (freshFrame s).mbh = s.mbh := by
  unfold freshFrame; exact ⟨Frame.wf_fresh _ _, rfl, rfl⟩

theorem filterStage_shape (k : Int → Int → Int → Int → EdgePair) (recon : Grid Bool) (f : Frame) :
    SameShape (filterStage k recon f) f := by
  unfold filterStage horizontalPass
  refine (mapPix_shape _ _).trans ?_
  unfold verticalPass
  exact mapPix_shape _ _

/-- The filters keep a frame's shape. -/
theorem filterFrame_shape (s : State) {f : Frame} (h : f.wf) : SameShape (filterFrame s f) f := by
  have self : SameShape f f := ⟨h, rfl, rfl⟩
  unfold filterFrame
  dsimp only
  split <;> split
  · exact (filterStage_shape _ _ _).trans (filterStage_shape _ _ _)
  · exact filterStage_shape _ _ _
  · exact filterStage_shape _ _ _
  · exact self

/-! ## Opening -/

/-- What a slot of a frame just opened may hold: nothing, a stored anchor, a frame made from one, or a
default frame. -/
def Opened (s : State) (slot : Option Frame) : Prop :=
  ∀ f, slot = some f →
    (∃ a, (s.ref = some a ∨ s.fwd = some a ∨ s.bwd = some a ∨ s.w2ref = some a) ∧
      (f = a ∨ SameShape f a))
    ∨ (f.wf ∧ f.mbw = s.mbw ∧ f.mbh = s.mbh)

/-- `OpenByType` writes `FSTATE`, `CUR`, the working references and the three flags, and opens or
suppresses the frame with the slots of R341. -/
theorem openByType_cases (ix : Bool) (s : State) :
    ∃ fs c w0 w1 n k x,
      openByType ix s = { openWith fs c w0 w1 s with noref := n, skipb := k, ix8 := x }
      ∧ fs.active = true
      ∧ (fs = .opened → c.isSome = true) ∧ (fs = .suppressed .noref → c.isSome = true)
      ∧ (fs = .opened → s.ft = .p → w0.isSome = true)
      ∧ (fs = .opened → s.fc = .vc1 → s.ft = .b → w0.isSome = true ∧ w1.isSome = true)
      ∧ Opened s c ∧ Opened s w0 ∧ Opened s w1 := by
  have none' : Opened s none := fun f h => by cases h
  have fresh : Opened s (some (freshFrame s)) := fun f h => by
    cases h; exact .inr (freshFrame_shape s)
  unfold openByType openNoref
  split
  · exact ⟨_, _, _, _, _, _, _, rfl, rfl, by simp, by simp, by simp_all, by simp_all, fresh, none', none'⟩
  · exact ⟨_, _, _, _, _, _, _, rfl, rfl, by simp, by simp, by simp_all, by simp_all, fresh, none', none'⟩
  · split
    · rename_i r hr
      have h : Opened s (some (adjFrame s r)) := fun f hf => by
        cases hf; exact .inl ⟨r, .inl hr, .inr (adjFrame_shape s r)⟩
      exact ⟨_, _, _, _, _, _, _, rfl, rfl, by simp, by simp, by simp, by simp_all, h, h, none'⟩
    · exact ⟨_, _, _, _, _, _, _, rfl, rfl, by simp, by simp, by simp, by simp, fresh, none', none'⟩
  · split
    · rename_i r hr
      have h : Opened s (some r) := fun f hf => by cases hf; exact .inl ⟨r, .inl hr, .inl rfl⟩
      exact ⟨_, _, _, _, _, _, _, rfl, rfl, by simp, by simp, by simp_all, by simp_all, h, none', none'⟩
    · exact ⟨_, _, _, _, _, _, _, rfl, rfl, by simp, by simp, by simp, by simp, fresh, none', none'⟩
  · split
    · rename_i f b hf hb
      have h0 : Opened s (some (adjFrame s f)) := fun g hg => by
        cases hg; exact .inl ⟨f, .inr (.inl hf), .inr (adjFrame_shape s f)⟩
      have h1 : Opened s (some (adjFrame s b)) := fun g hg => by
        cases hg; exact .inl ⟨b, .inr (.inr (.inl hb)), .inr (adjFrame_shape s b)⟩
      exact ⟨_, _, _, _, _, _, _, rfl, rfl, by simp, by simp, by simp, by simp, fresh, h0, h1⟩
    · exact ⟨_, _, _, _, _, _, _, rfl, rfl, by simp, by simp, by simp, by simp, none', none', none'⟩
  · split
    · rename_i r hr
      have h : Opened s (some r) := fun f hf => by
        cases hf; exact .inl ⟨r, .inr (.inr (.inr hr)), .inl rfl⟩
      exact ⟨_, _, _, _, _, _, _, rfl, rfl, by simp, by simp, by simp, by simp_all, h, h, none'⟩
    · exact ⟨_, _, _, _, _, _, _, rfl, rfl, by simp, by simp, by simp, by simp, fresh, none', none'⟩
  · split
    · rename_i r hr
      have h : Opened s (some r) := fun f hf => by
        cases hf; exact .inl ⟨r, .inr (.inr (.inr hr)), .inl rfl⟩
      exact ⟨_, _, _, _, _, _, _, rfl, rfl, by simp, by simp, by simp_all, by simp_all, h, none', none'⟩
    · exact ⟨_, _, _, _, _, _, _, rfl, rfl, by simp, by simp, by simp, by simp, fresh, none', none'⟩
  · split
    · exact ⟨_, _, _, _, _, _, _, rfl, rfl, by simp, by simp, by simp, by simp, none', none', none'⟩
    · exact ⟨_, _, _, _, _, _, _, rfl, rfl, by simp, by simp, by simp_all, by simp_all, fresh, none', none'⟩

/-- The ways `FRAME_BEGIN` can end (R340). -/
theorem execFrameBegin_cases (ix : Bool) (s : State) :
    (s.fstate.active = true ∧ execFrameBegin ix s = .next (raise .seq s))
    ∨ (s.fstate.active = false ∧ ∃ e, execFrameBegin ix s = .next (raise e (clearStatus s)))
    ∨ (s.fstate.active = false ∧ s.mbw ≠ 0 ∧ ∃ t,
        execFrameBegin ix s = .next (openFrame ix (effectiveType s t) (clearStatus s))
        ∧ frameTypeOf (cfgCodec s) (cfgFrameType s) = some t
        ∧ frameCfgOk s (effectiveType s t) = true) := by
  have chk : ∀ r, frameBeginRule ix s = r → execFrameBegin ix s = match r with
      | .ok _ t => .next t
      | .error e t => .next (raise e t) := by
    intro r h; subst h; rfl
  cases ha : s.fstate.active with
  | true =>
    refine .inl ⟨rfl, chk (.error .seq s) ?_⟩
    simp [frameBeginRule, ha]
  | false =>
    refine .inr ?_
    have hr : frameBeginRule ix s = frameBeginChecked ix (clearStatus s) := by simp [frameBeginRule, ha]
    rw [hr] at chk
    by_cases hw : s.mbw = 0
    · exact .inl ⟨rfl, .seq, chk (.error .seq _) (if_pos hw)⟩
    · have hc : frameBeginChecked ix (clearStatus s)
          = match frameTypeOf (cfgCodec s) (cfgFrameType s) with
            | none => .error .badCfg (clearStatus s)
            | some t =>
              if frameCfgOk s (effectiveType s t) then
                .ok () (openFrame ix (effectiveType s t) (clearStatus s))
              else .error .badCfg (clearStatus s) := if_neg hw
      cases ht : frameTypeOf (cfgCodec s) (cfgFrameType s) with
      | none => exact .inl ⟨rfl, .badCfg, chk (.error .badCfg _) (by rw [hc, ht])⟩
      | some t =>
        cases hk : frameCfgOk s (effectiveType s t) with
        | false => exact .inl ⟨rfl, .badCfg, chk (.error .badCfg _) (by rw [hc, ht]; simp [hk])⟩
        | true =>
          exact .inr ⟨rfl, hw, t, chk (.ok () _) (by rw [hc, ht]; simp [hk]), rfl, hk⟩

/-! ## Closing -/

/-- `Rotate` copies `CUR` into anchors or moves `BWD` to `FWD`; it writes nothing but the anchors and
`PREV_RRF` (R347). -/
theorem rotate_cases (s : State) :
    ∃ r fw bw w2 p, rotate s = { s with ref := r, fwd := fw, bwd := bw, w2ref := w2, prevRrf := p }
      ∧ (r = s.ref ∨ r = s.cur) ∧ (fw = s.fwd ∨ fw = s.bwd) ∧ (bw = s.bwd ∨ bw = s.cur)
      ∧ (w2 = s.w2ref ∨ w2 = s.cur) := by
  unfold rotate
  split <;> exact ⟨_, _, _, _, _, rfl, by simp, by simp, by simp, by simp⟩

/-- The ways `FRAME_END` can end (R346). -/
theorem execFrameEnd_cases (s : State) :
    (s.fstate = .idle ∧ execFrameEnd s = .next (raise .seq s))
    ∨ ((s.fstate = .aborted ∨ s.fstate = .suppressed .skipb ∨ s.fstate = .suppressed .ix8)
        ∧ execFrameEnd s = .next (closeFrame s))
    ∨ (s.fstate = .suppressed .noref ∧ execFrameEnd s = .next (closeFrame (outputFrame s)))
    ∨ (s.fstate = .opened
        ∧ execFrameEnd s = .next (closeFrame (outputFrame { s with cur := s.cur.map (filterFrame s) }))) := by
  have chk : ∀ r, frameEndRule s = r → execFrameEnd s = match r with
      | .ok _ t => .next t
      | .error e t => .next (raise e t) := by
    intro r h; subst h; rfl
  cases h : s.fstate with
  | idle => exact .inl ⟨rfl, chk (.error .seq s) (by simp [frameEndRule, h])⟩
  | aborted => exact .inr (.inl ⟨.inl rfl, chk (.ok () _) (by simp [frameEndRule, h])⟩)
  | opened => exact .inr (.inr (.inr ⟨rfl, chk (.ok () _) (by simp [frameEndRule, h])⟩))
  | suppressed k =>
    cases k with
    | noref => exact .inr (.inr (.inl ⟨rfl, chk (.ok () _) (by simp [frameEndRule, h])⟩))
    | skipb => exact .inr (.inl ⟨.inr (.inl rfl), chk (.ok () _) (by simp [frameEndRule, h])⟩)
    | ix8 => exact .inr (.inl ⟨.inr (.inr rfl), chk (.ok () _) (by simp [frameEndRule, h])⟩)

end Sys2Proof.Machine
end

