-- ==== Sys2Proof/Laws/Memory.lean ====
section
/-! SUPPORT. The laws of the payload memory: a read after a write, and its one canonical form. -/

namespace Sys2Proof.Machine

/-- What was written is read back; every other byte reads as before (R86). -/
@[simp] theorem memRead_memWrite (m : Memory) (a : Nat) (v : Byte) (b : Nat) :
    memRead (memWrite m a v) b = if b = a then v else memRead m b := by
  unfold memRead memRead? memWrite
  by_cases h : b = a <;> simp [h]

/-- A write at an address that exists keeps the canonical form. -/
theorem memWrite_wf {limit : Nat} {m : Memory} (h : Memory.wf limit m) {a : Nat} (ha : a < limit)
    (v : Byte) : Memory.wf limit (memWrite m a v) := by
  refine ⟨sparseSorted_insert h.1 a v, fun c hc => ?_⟩
  rcases mem_sparseInsert hc with rfl | hc
  · exact ha
  · exact h.2 c hc

/-- The memory of the reset state has the canonical form. -/
theorem reset_payload_wf (limit : Nat) : Memory.wf limit State.reset.payload :=
  ⟨List.Pairwise.nil, by simp [State.reset]⟩

/-- The host's write of a payload byte: the byte exists and is written, or the machine faults (R59). -/
theorem writePayload_next {a : Nat} {v : Byte} {s t : State} (h : writePayload a v s = .next t) :
    a < s.params.raw.payloadMax ∧ t = { s with payload := memWrite s.payload a v } := by
  unfold writePayload at h
  split at h
  · rename_i ha; exact ⟨ha, by simpa using h.symm⟩
  · simp at h

end Sys2Proof.Machine
end

