-- ==== Sys2Proof/Laws/PerInstr.lean ====
section
/-! SUPPORT. One fact per command: its encoding matches its own row of spec/opcode_table.json, the bits of
the row's mask holding the row's match value. -/

namespace Sys2Proof.Laws.RowWord

/-- A row's mask and match value in spec/opcode_table.json. -/
structure Row where
  mask : Word
  value : Word

/-- The row of a command. -/
def rowOf : Instr → Row
  | .nop => ⟨0xFFFFFFFF, 0x00000000⟩
  | .resize _ _ => ⟨0xFF000000, 0x01000000⟩
  | .wrcfg _ _ => ⟨0xFFE00000, 0x02000000⟩
  | .rdcfg _ => ⟨0xFFE0FFFF, 0x03000000⟩
  | .frameBegin _ => ⟨0xFFFFFFFE, 0x05000000⟩
  | .frameEnd => ⟨0xFFFFFFFF, 0x06000000⟩
  | .setMb _ _ => ⟨0xFF000000, 0x07000000⟩
  | .setMquant _ => ⟨0xFFFFFFE0, 0x08000000⟩
  | .brInit _ => ⟨0xFF000000, 0x10000000⟩
  | .brReadBit => ⟨0xFFFFFFFF, 0x11000000⟩
  | .brReadBits _ => ⟨0xFFFFFFC0, 0x12000000⟩
  | .brReadSigned _ => ⟨0xFFFFFFC0, 0x13000000⟩
  | .brPeek _ => ⟨0xFFFFFFC0, 0x14000000⟩
  | .brSkip _ => ⟨0xFF000000, 0x15000000⟩
  | .brBitsLeft => ⟨0xFFFFFFFF, 0x16000000⟩
  | .brIsEmpty => ⟨0xFFFFFFFF, 0x17000000⟩
  | .brNeed _ => ⟨0xFF000000, 0x18000000⟩
  | .vlcDecode _ => ⟨0xFFFFFF00, 0x20000000⟩
  | .vlcMaxlevel _ _ _ => ⟨0xFFFF8000, 0x21000000⟩
  | .vlcMaxrun _ _ _ => ⟨0xFFFE0000, 0x22000000⟩
  | .dcVc1 _ => ⟨0xFFFFFF00, 0x28000000⟩
  | .dcWmv2 _ => ⟨0xFFFFFF00, 0x29000000⟩
  | .clrCoef => ⟨0xFFFFFFFF, 0x2A000000⟩
  | .acSymVc1 _ => ⟨0xFFFFFF00, 0x2B000000⟩
  | .acBlockVc1 _ _ _ => ⟨0xFFFFE000, 0x2C000000⟩
  | .acSymWmv2 _ => ⟨0xFFFFFF00, 0x2D000000⟩
  | .acBlockWmv2 _ _ _ => ⟨0xFFFFE000, 0x2E000000⟩
  | .coefWr _ _ => ⟨0xFFC00000, 0x2F000000⟩
  | .dqVc1 _ _ => ⟨0xFFFFFFF0, 0x30000000⟩
  | .dqWmv2 _ _ => ⟨0xFFFFFFF0, 0x31000000⟩
  | .idct8x8 => ⟨0xFFFFFFFF, 0x40000000⟩
  | .idct8x4A => ⟨0xFFFFFFFF, 0x40000001⟩
  | .idct8x4B => ⟨0xFFFFFFFF, 0x40000002⟩
  | .idct4x8A => ⟨0xFFFFFFFF, 0x40000003⟩
  | .idct4x8B => ⟨0xFFFFFFFF, 0x40000004⟩
  | .idct4x4A => ⟨0xFFFFFFFF, 0x40000005⟩
  | .idct4x4B => ⟨0xFFFFFFFF, 0x40000006⟩
  | .widct8x8 => ⟨0xFFFFFFFF, 0x41000000⟩
  | .widct8x4 => ⟨0xFFFFFFFF, 0x41000001⟩
  | .widct4x8 => ⟨0xFFFFFFFF, 0x41000002⟩
  | .blkPut _ => ⟨0xFFFFFFF8, 0x42000000⟩
  | .blkAdd _ => ⟨0xFFFFFFF8, 0x43000000⟩
  | .dcpredVc1 _ => ⟨0xFFFFFFF8, 0x50000000⟩
  | .dcpredWmv2 _ => ⟨0xFFFFFFF8, 0x51000000⟩
  | .predStore _ => ⟨0xFFFFFFF8, 0x52000000⟩
  | .acpred _ => ⟨0xFFFFFFF8, 0x53000000⟩
  | .cbppred _ _ => ⟨0xFFFFFFEC, 0x54000000⟩
  | .mvpred => ⟨0xFFFFFFFF, 0x58000000⟩
  | .setMv _ _ _ _ => ⟨0xFF000000, 0x59000000⟩
  | .mvstore _ => ⟨0xFFFFFFFE, 0x5A000000⟩
  | .mvBdirect => ⟨0xFFFFFFFF, 0x5B000000⟩
  | .mcBilin _ => ⟨0xFFFFFFFE, 0x60000000⟩
  | .mcMspel _ => ⟨0xFFFFFFFE, 0x61000000⟩
  | .mcCommit _ => ⟨0xFFFFFFFE, 0x62000000⟩

/-- The command word of `i` matches its row (R102, R103). -/
def Statement (i : Instr) : Prop := encode i &&& (rowOf i).mask = (rowOf i).value

theorem nop : Statement .nop := by unfold Statement; decide

theorem resize (mbw : BitVec 12) (mbh : BitVec 12) : Statement (.resize mbw mbh) := by
  show ((0x1#8 ++ (mbw ++ mbh : BitVec 24))
      &&& (0xFF#8 ++ (0#12 ++ 0#12 : BitVec 24)) : BitVec 32) = _
  rw [BitVec.and_append, BitVec.and_append]
  simp only [BitVec.and_zero]
  rfl

theorem wrcfg (idx : BitVec 5) (val : BitVec 16) : Statement (.wrcfg idx val) := by
  show ((0x2#8 ++ (0#3 ++ idx ++ val : BitVec 24))
      &&& (0xFF#8 ++ (0x7#3 ++ 0#5 ++ 0#16 : BitVec 24)) : BitVec 32) = _
  rw [BitVec.and_append, BitVec.and_append, BitVec.and_append]
  simp only [BitVec.and_zero]
  rfl

theorem rdcfg (idx : BitVec 5) : Statement (.rdcfg idx) := by
  show ((0x3#8 ++ (0#3 ++ idx ++ 0#16 : BitVec 24))
      &&& (0xFF#8 ++ (0x7#3 ++ 0#5 ++ 0xffff#16 : BitVec 24)) : BitVec 32) = _
  rw [BitVec.and_append, BitVec.and_append, BitVec.and_append]
  simp only [BitVec.and_zero]
  rfl

theorem frameBegin (ix8 : Bool) : Statement (.frameBegin ix8) := by
  show ((0x5#8 ++ (0#23 ++ bit ix8 : BitVec 24))
      &&& (0xFF#8 ++ (0x7fffff#23 ++ 0#1 : BitVec 24)) : BitVec 32) = _
  rw [BitVec.and_append, BitVec.and_append]
  simp only [BitVec.and_zero]
  rfl

theorem frameEnd : Statement .frameEnd := by unfold Statement; decide

theorem setMb (mbx : BitVec 12) (mby : BitVec 12) : Statement (.setMb mbx mby) := by
  show ((0x7#8 ++ (mbx ++ mby : BitVec 24))
      &&& (0xFF#8 ++ (0#12 ++ 0#12 : BitVec 24)) : BitVec 32) = _
  rw [BitVec.and_append, BitVec.and_append]
  simp only [BitVec.and_zero]
  rfl

theorem setMquant (mq : BitVec 5) : Statement (.setMquant mq) := by
  show ((0x8#8 ++ (0#19 ++ mq : BitVec 24))
      &&& (0xFF#8 ++ (0x7ffff#19 ++ 0#5 : BitVec 24)) : BitVec 32) = _
  rw [BitVec.and_append, BitVec.and_append]
  simp only [BitVec.and_zero]
  rfl

theorem brInit (off : BitVec 24) : Statement (.brInit off) := by
  show ((0x10#8 ++ (off : BitVec 24))
      &&& (0xFF#8 ++ (0#24 : BitVec 24)) : BitVec 32) = _
  rw [BitVec.and_append]
  simp only [BitVec.and_zero]
  rfl

theorem brReadBit : Statement .brReadBit := by unfold Statement; decide

theorem brReadBits (n : BitVec 6) : Statement (.brReadBits n) := by
  show ((0x12#8 ++ (0#18 ++ n : BitVec 24))
      &&& (0xFF#8 ++ (0x3ffff#18 ++ 0#6 : BitVec 24)) : BitVec 32) = _
  rw [BitVec.and_append, BitVec.and_append]
  simp only [BitVec.and_zero]
  rfl

theorem brReadSigned (n : BitVec 6) : Statement (.brReadSigned n) := by
  show ((0x13#8 ++ (0#18 ++ n : BitVec 24))
      &&& (0xFF#8 ++ (0x3ffff#18 ++ 0#6 : BitVec 24)) : BitVec 32) = _
  rw [BitVec.and_append, BitVec.and_append]
  simp only [BitVec.and_zero]
  rfl

theorem brPeek (n : BitVec 6) : Statement (.brPeek n) := by
  show ((0x14#8 ++ (0#18 ++ n : BitVec 24))
      &&& (0xFF#8 ++ (0x3ffff#18 ++ 0#6 : BitVec 24)) : BitVec 32) = _
  rw [BitVec.and_append, BitVec.and_append]
  simp only [BitVec.and_zero]
  rfl

theorem brSkip (n : BitVec 24) : Statement (.brSkip n) := by
  show ((0x15#8 ++ (n : BitVec 24))
      &&& (0xFF#8 ++ (0#24 : BitVec 24)) : BitVec 32) = _
  rw [BitVec.and_append]
  simp only [BitVec.and_zero]
  rfl

theorem brBitsLeft : Statement .brBitsLeft := by unfold Statement; decide

theorem brIsEmpty : Statement .brIsEmpty := by unfold Statement; decide

theorem brNeed (n : BitVec 24) : Statement (.brNeed n) := by
  show ((0x18#8 ++ (n : BitVec 24))
      &&& (0xFF#8 ++ (0#24 : BitVec 24)) : BitVec 32) = _
  rw [BitVec.and_append]
  simp only [BitVec.and_zero]
  rfl

theorem vlcDecode (t : BitVec 8) : Statement (.vlcDecode t) := by
  show ((0x20#8 ++ (0#16 ++ t : BitVec 24))
      &&& (0xFF#8 ++ (0xffff#16 ++ 0#8 : BitVec 24)) : BitVec 32) = _
  rw [BitVec.and_append, BitVec.and_append]
  simp only [BitVec.and_zero]
  rfl

theorem vlcMaxlevel (t : BitVec 8) (last : Bool) (run : BitVec 6) : Statement (.vlcMaxlevel t last run) := by
  show ((0x21#8 ++ (0#9 ++ run ++ bit last ++ t : BitVec 24))
      &&& (0xFF#8 ++ (0x1ff#9 ++ 0#6 ++ 0#1 ++ 0#8 : BitVec 24)) : BitVec 32) = _
  rw [BitVec.and_append, BitVec.and_append, BitVec.and_append, BitVec.and_append]
  simp only [BitVec.and_zero]
  rfl

theorem vlcMaxrun (t : BitVec 8) (last : Bool) (level : BitVec 8) : Statement (.vlcMaxrun t last level) := by
  show ((0x22#8 ++ (0#7 ++ level ++ bit last ++ t : BitVec 24))
      &&& (0xFF#8 ++ (0x7f#7 ++ 0#8 ++ 0#1 ++ 0#8 : BitVec 24)) : BitVec 32) = _
  rw [BitVec.and_append, BitVec.and_append, BitVec.and_append, BitVec.and_append]
  simp only [BitVec.and_zero]
  rfl

theorem dcVc1 (t : BitVec 8) : Statement (.dcVc1 t) := by
  show ((0x28#8 ++ (0#16 ++ t : BitVec 24))
      &&& (0xFF#8 ++ (0xffff#16 ++ 0#8 : BitVec 24)) : BitVec 32) = _
  rw [BitVec.and_append, BitVec.and_append]
  simp only [BitVec.and_zero]
  rfl

theorem dcWmv2 (t : BitVec 8) : Statement (.dcWmv2 t) := by
  show ((0x29#8 ++ (0#16 ++ t : BitVec 24))
      &&& (0xFF#8 ++ (0xffff#16 ++ 0#8 : BitVec 24)) : BitVec 32) = _
  rw [BitVec.and_append, BitVec.and_append]
  simp only [BitVec.and_zero]
  rfl

theorem clrCoef : Statement .clrCoef := by unfold Statement; decide

theorem acSymVc1 (t : BitVec 8) : Statement (.acSymVc1 t) := by
  show ((0x2b#8 ++ (0#16 ++ t : BitVec 24))
      &&& (0xFF#8 ++ (0xffff#16 ++ 0#8 : BitVec 24)) : BitVec 32) = _
  rw [BitVec.and_append, BitVec.and_append]
  simp only [BitVec.and_zero]
  rfl

theorem acBlockVc1 (t : BitVec 8) (sc : BitVec 4) (intra : Bool) : Statement (.acBlockVc1 t sc intra) := by
  show ((0x2c#8 ++ (0#11 ++ bit intra ++ sc ++ t : BitVec 24))
      &&& (0xFF#8 ++ (0x7ff#11 ++ 0#1 ++ 0#4 ++ 0#8 : BitVec 24)) : BitVec 32) = _
  rw [BitVec.and_append, BitVec.and_append, BitVec.and_append, BitVec.and_append]
  simp only [BitVec.and_zero]
  rfl

theorem acSymWmv2 (t : BitVec 8) : Statement (.acSymWmv2 t) := by
  show ((0x2d#8 ++ (0#16 ++ t : BitVec 24))
      &&& (0xFF#8 ++ (0xffff#16 ++ 0#8 : BitVec 24)) : BitVec 32) = _
  rw [BitVec.and_append, BitVec.and_append]
  simp only [BitVec.and_zero]
  rfl

theorem acBlockWmv2 (t : BitVec 8) (sc : BitVec 4) (intra : Bool) : Statement (.acBlockWmv2 t sc intra) := by
  show ((0x2e#8 ++ (0#11 ++ bit intra ++ sc ++ t : BitVec 24))
      &&& (0xFF#8 ++ (0x7ff#11 ++ 0#1 ++ 0#4 ++ 0#8 : BitVec 24)) : BitVec 32) = _
  rw [BitVec.and_append, BitVec.and_append, BitVec.and_append, BitVec.and_append]
  simp only [BitVec.and_zero]
  rfl

theorem coefWr (idx : BitVec 6) (v : BitVec 16) : Statement (.coefWr idx v) := by
  show ((0x2f#8 ++ (0#2 ++ idx ++ v : BitVec 24))
      &&& (0xFF#8 ++ (0x3#2 ++ 0#6 ++ 0#16 : BitVec 24)) : BitVec 32) = _
  rw [BitVec.and_append, BitVec.and_append, BitVec.and_append]
  simp only [BitVec.and_zero]
  rfl

theorem dqVc1 (b : BitVec 3) (intra : Bool) : Statement (.dqVc1 b intra) := by
  show ((0x30#8 ++ (0#20 ++ bit intra ++ b : BitVec 24))
      &&& (0xFF#8 ++ (0xfffff#20 ++ 0#1 ++ 0#3 : BitVec 24)) : BitVec 32) = _
  rw [BitVec.and_append, BitVec.and_append, BitVec.and_append]
  simp only [BitVec.and_zero]
  rfl

theorem dqWmv2 (b : BitVec 3) (intra : Bool) : Statement (.dqWmv2 b intra) := by
  show ((0x31#8 ++ (0#20 ++ bit intra ++ b : BitVec 24))
      &&& (0xFF#8 ++ (0xfffff#20 ++ 0#1 ++ 0#3 : BitVec 24)) : BitVec 32) = _
  rw [BitVec.and_append, BitVec.and_append, BitVec.and_append]
  simp only [BitVec.and_zero]
  rfl

theorem idct8x8 : Statement .idct8x8 := by unfold Statement; decide

theorem idct8x4A : Statement .idct8x4A := by unfold Statement; decide

theorem idct8x4B : Statement .idct8x4B := by unfold Statement; decide

theorem idct4x8A : Statement .idct4x8A := by unfold Statement; decide

theorem idct4x8B : Statement .idct4x8B := by unfold Statement; decide

theorem idct4x4A : Statement .idct4x4A := by unfold Statement; decide

theorem idct4x4B : Statement .idct4x4B := by unfold Statement; decide

theorem widct8x8 : Statement .widct8x8 := by unfold Statement; decide

theorem widct8x4 : Statement .widct8x4 := by unfold Statement; decide

theorem widct4x8 : Statement .widct4x8 := by unfold Statement; decide

theorem blkPut (b : BitVec 3) : Statement (.blkPut b) := by
  show ((0x42#8 ++ (0#21 ++ b : BitVec 24))
      &&& (0xFF#8 ++ (0x1fffff#21 ++ 0#3 : BitVec 24)) : BitVec 32) = _
  rw [BitVec.and_append, BitVec.and_append]
  simp only [BitVec.and_zero]
  rfl

theorem blkAdd (b : BitVec 3) : Statement (.blkAdd b) := by
  show ((0x43#8 ++ (0#21 ++ b : BitVec 24))
      &&& (0xFF#8 ++ (0x1fffff#21 ++ 0#3 : BitVec 24)) : BitVec 32) = _
  rw [BitVec.and_append, BitVec.and_append]
  simp only [BitVec.and_zero]
  rfl

theorem dcpredVc1 (b : BitVec 3) : Statement (.dcpredVc1 b) := by
  show ((0x50#8 ++ (0#21 ++ b : BitVec 24))
      &&& (0xFF#8 ++ (0x1fffff#21 ++ 0#3 : BitVec 24)) : BitVec 32) = _
  rw [BitVec.and_append, BitVec.and_append]
  simp only [BitVec.and_zero]
  rfl

theorem dcpredWmv2 (b : BitVec 3) : Statement (.dcpredWmv2 b) := by
  show ((0x51#8 ++ (0#21 ++ b : BitVec 24))
      &&& (0xFF#8 ++ (0x1fffff#21 ++ 0#3 : BitVec 24)) : BitVec 32) = _
  rw [BitVec.and_append, BitVec.and_append]
  simp only [BitVec.and_zero]
  rfl

theorem predStore (b : BitVec 3) : Statement (.predStore b) := by
  show ((0x52#8 ++ (0#21 ++ b : BitVec 24))
      &&& (0xFF#8 ++ (0x1fffff#21 ++ 0#3 : BitVec 24)) : BitVec 32) = _
  rw [BitVec.and_append, BitVec.and_append]
  simp only [BitVec.and_zero]
  rfl

theorem acpred (b : BitVec 3) : Statement (.acpred b) := by
  show ((0x53#8 ++ (0#21 ++ b : BitVec 24))
      &&& (0xFF#8 ++ (0x1fffff#21 ++ 0#3 : BitVec 24)) : BitVec 32) = _
  rw [BitVec.and_append, BitVec.and_append]
  simp only [BitVec.and_zero]
  rfl

theorem cbppred (b : BitVec 2) (raw : Bool) : Statement (.cbppred b raw) := by
  show ((0x54#8 ++ (0#19 ++ bit raw ++ 0#2 ++ b : BitVec 24))
      &&& (0xFF#8 ++ (0x7ffff#19 ++ 0#1 ++ 0x3#2 ++ 0#2 : BitVec 24)) : BitVec 32) = _
  rw [BitVec.and_append, BitVec.and_append, BitVec.and_append, BitVec.and_append]
  simp only [BitVec.and_zero]
  rfl

theorem mvpred : Statement .mvpred := by unfold Statement; decide

theorem setMv (sel : Bool) (addp : Bool) (x : BitVec 11) (y : BitVec 11) : Statement (.setMv sel addp x y) := by
  show ((0x59#8 ++ (bit sel ++ bit addp ++ x ++ y : BitVec 24))
      &&& (0xFF#8 ++ (0#1 ++ 0#1 ++ 0#11 ++ 0#11 : BitVec 24)) : BitVec 32) = _
  rw [BitVec.and_append, BitVec.and_append, BitVec.and_append, BitVec.and_append]
  simp only [BitVec.and_zero]
  rfl

theorem mvstore (skipped : Bool) : Statement (.mvstore skipped) := by
  show ((0x5a#8 ++ (0#23 ++ bit skipped : BitVec 24))
      &&& (0xFF#8 ++ (0x7fffff#23 ++ 0#1 : BitVec 24)) : BitVec 32) = _
  rw [BitVec.and_append, BitVec.and_append]
  simp only [BitVec.and_zero]
  rfl

theorem mvBdirect : Statement .mvBdirect := by unfold Statement; decide

theorem mcBilin (k : Bool) : Statement (.mcBilin k) := by
  show ((0x60#8 ++ (0#23 ++ bit k : BitVec 24))
      &&& (0xFF#8 ++ (0x7fffff#23 ++ 0#1 : BitVec 24)) : BitVec 32) = _
  rw [BitVec.and_append, BitVec.and_append]
  simp only [BitVec.and_zero]
  rfl

theorem mcMspel (hshift : Bool) : Statement (.mcMspel hshift) := by
  show ((0x61#8 ++ (0#23 ++ bit hshift : BitVec 24))
      &&& (0xFF#8 ++ (0x7fffff#23 ++ 0#1 : BitVec 24)) : BitVec 32) = _
  rw [BitVec.and_append, BitVec.and_append]
  simp only [BitVec.and_zero]
  rfl

theorem mcCommit (avg : Bool) : Statement (.mcCommit avg) := by
  show ((0x62#8 ++ (0#23 ++ bit avg : BitVec 24))
      &&& (0xFF#8 ++ (0x7fffff#23 ++ 0#1 : BitVec 24)) : BitVec 32) = _
  rw [BitVec.and_append, BitVec.and_append]
  simp only [BitVec.and_zero]
  rfl

end Sys2Proof.Laws.RowWord
end

