-- ==== Sys2Proof/Laws/Steps.lean ====
section
/-! SUPPORT. What a command can do, said once: `Runs s t` lists what every command but the six of
60_exceptions.md R381 leaves unchanged, and `exec_cases` says that such a command does no more than
`Runs`, perhaps followed by a `raise`. The six have lemmas of their own. -/

namespace Sys2Proof.Machine

/-! ## The relation -/

/-- A slot that a command other than the six may have written: unchanged, or a frame of the same size
with all its samples. -/
def SameSlot (a b : Option Frame) : Prop :=
  b = a ∨ ∃ f g, a = some f ∧ b = some g ∧ g.wf ∧ g.mbw = f.mbw ∧ g.mbh = f.mbh

/-- What the rule of a command other than the six may have done up to any point. -/
structure Runs (s t : State) : Prop where
  params : t.params = s.params
  cfg : t.cfg = s.cfg
  fc : t.fc = s.fc
  ft : t.ft = s.ft
  mbw : t.mbw = s.mbw
  mbh : t.mbh = s.mbh
  place : (t.mbx = s.mbx ∧ t.mby = s.mby) ∨ (t.mbx.toNat < s.mbw.toNat ∧ t.mby.toNat < s.mbh.toNat)
  brLen : t.brLen = s.brLen ∨ t.brLen = n32 (8 * s.payloadLen.toNat)
  esc3LL : s.esc3LL.toNat ≤ 8 → t.esc3LL.toNat ≤ 8
  esc3RL : s.esc3RL.toNat ≤ 6 → t.esc3RL.toNat ≤ 6
  dcb : s.dcb.wf → t.dcb.wf
  acrow : s.acrow.wf → t.acrow.wf
  accol : s.accol.wf → t.accol.wf
  mvbuf : s.mvbuf.wf → t.mvbuf.wf
  cbpb : s.cbpb.wf → t.cbpb.wf
  recon : s.recon.wf → t.recon.wf
  cur : SameSlot s.cur t.cur
  out : t.out = s.out
  ref : t.ref = s.ref
  fwd : t.fwd = s.fwd
  bwd : t.bwd = s.bwd
  w2ref : t.w2ref = s.w2ref
  wref0 : t.wref0 = s.wref0
  wref1 : t.wref1 = s.wref1
  fstate : t.fstate = s.fstate
  prevRrf : t.prevRrf = s.prevRrf
  err : t.err = s.err
  ecode : t.ecode = s.ecode
  noref : t.noref = s.noref
  skipb : t.skipb = s.skipb
  ix8 : t.ix8 = s.ix8
  errcmd : t.errcmd = s.errcmd
  errpos : t.errpos = s.errpos
  payload : t.payload = s.payload
  payloadLen : t.payloadLen = s.payloadLen
  cmd : t.cmd = s.cmd
  port : t.port = s.port

theorem SameSlot.trans {a b c : Option Frame} (h : SameSlot a b) (k : SameSlot b c) : SameSlot a c := by
  rcases k with rfl | ⟨f, g, rfl, rfl, hg, hw, hh⟩
  · exact h
  · rcases h with h | ⟨f', g', rfl, h, _, hw', hh'⟩
    · exact .inr ⟨f, g, h.symm, rfl, hg, hw, hh⟩
    · cases h
      exact .inr ⟨f', g, rfl, rfl, hg, hw.trans hw', hh.trans hh'⟩

theorem Runs.refl (s : State) : Runs s s := by
  constructor <;> first | rfl | exact id | exact .inl rfl | exact .inl ⟨rfl, rfl⟩

theorem Runs.trans {a b c : State} (h : Runs a b) (k : Runs b c) : Runs a c where
  params := k.params.trans h.params
  cfg := k.cfg.trans h.cfg
  fc := k.fc.trans h.fc
  ft := k.ft.trans h.ft
  mbw := k.mbw.trans h.mbw
  mbh := k.mbh.trans h.mbh
  place := by
    rcases k.place with ⟨h1, h2⟩ | hk
    · rw [h1, h2]; exact h.place
    · rw [h.mbw, h.mbh] at hk; exact .inr hk
  brLen := by
    rcases k.brLen with h1 | h1
    · rw [h1]; exact h.brLen
    · rw [h.payloadLen] at h1; exact .inr h1
  esc3LL := fun x => k.esc3LL (h.esc3LL x)
  esc3RL := fun x => k.esc3RL (h.esc3RL x)
  dcb := fun x => k.dcb (h.dcb x)
  acrow := fun x => k.acrow (h.acrow x)
  accol := fun x => k.accol (h.accol x)
  mvbuf := fun x => k.mvbuf (h.mvbuf x)
  cbpb := fun x => k.cbpb (h.cbpb x)
  recon := fun x => k.recon (h.recon x)
  cur := h.cur.trans k.cur
  out := k.out.trans h.out
  ref := k.ref.trans h.ref
  fwd := k.fwd.trans h.fwd
  bwd := k.bwd.trans h.bwd
  w2ref := k.w2ref.trans h.w2ref
  wref0 := k.wref0.trans h.wref0
  wref1 := k.wref1.trans h.wref1
  fstate := k.fstate.trans h.fstate
  prevRrf := k.prevRrf.trans h.prevRrf
  err := k.err.trans h.err
  ecode := k.ecode.trans h.ecode
  noref := k.noref.trans h.noref
  skipb := k.skipb.trans h.skipb
  ix8 := k.ix8.trans h.ix8
  errcmd := k.errcmd.trans h.errcmd
  errpos := k.errpos.trans h.errpos
  payload := k.payload.trans h.payload
  payloadLen := k.payloadLen.trans h.payloadLen
  cmd := k.cmd.trans h.cmd
  port := k.port.trans h.port

variable {α β : Type}

/-! ## The steps of a rule -/

theorem runs_bind {m : Engine α} {f : α → Engine β} (hm : Keeps Runs m) (hf : ∀ a, Keeps Runs (f a)) :
    Keeps Runs (m >>= f) :=
  keeps_bind (R := Runs) (fun _ _ _ => Runs.trans) hm hf

theorem runs_pure (a : α) : Keeps Runs (pure a : Engine α) := keeps_pure Runs.refl a

theorem runs_fail (e : ErrCode) : Keeps Runs (fail e : Engine α) := keeps_fail Runs.refl e

theorem runs_look (f : State → α) : Keeps Runs (look f) := keeps_look Runs.refl f

/-- A step that writes data registers alone: the cursor, the results, the quantizer override, the
differential, the direction, the coefficients, the vectors, the prediction buffers, `STATUS.LAST`. -/
theorem runs_data {s : State} {mquant mqValid brPos res0 res1 res2 dcdiff pdir coef pmv mvf mvbk mcbuf0
    mcbuf1 last} : Runs s { s with
      mquant := mquant, mqValid := mqValid, brPos := brPos, res0 := res0, res1 := res1, res2 := res2
      dcdiff := dcdiff, pdir := pdir, coef := coef, pmv := pmv, mvf := mvf, mvbk := mvbk
      mcbuf0 := mcbuf0, mcbuf1 := mcbuf1, last := last } := by
  constructor <;> first | rfl | exact id | exact .inl rfl | exact .inl ⟨rfl, rfl⟩

theorem runs_skip (n : Nat) (s : State) : Runs s (skipBits n s) := runs_data

theorem runs_readBits (n : Nat) : Keeps Runs (readBits n) := keeps_readBits runs_skip n

theorem runs_readBit : Keeps Runs readBit := keeps_readBit runs_skip

theorem runs_needPicture : Keeps Runs needPicture := keeps_needPicture Runs.refl

/-- The `raise` or the end that a test of the state alone decides. -/
theorem runs_test {m : Engine α}
    (h : ∀ s, (∃ a, m s = .ok a s) ∨ ∃ e, m s = .error e s) : Keeps Runs m := by
  intro s
  rcases h s with ⟨a, h⟩ | ⟨e, h⟩ <;> rw [h]
  · exact ⟨fun a t ht => (by cases ht; exact Runs.refl s), fun e t ht => by cases ht⟩
  · exact ⟨fun a t ht => (by cases ht), fun e t ht => (by cases ht; exact Runs.refl s)⟩

theorem runs_needBits : Keeps Runs needBits := runs_test fun s => by
  unfold needBits; split
  · exact .inr ⟨_, rfl⟩
  · exact .inl ⟨_, rfl⟩

theorem runs_decodeSym {σ : Type} (es : List (VlcEntry σ)) : Keeps Runs (decodeSym es) := by
  intro s
  unfold decodeSym
  split
  · exact ⟨fun a t ht => (by cases ht), fun e t ht => (by cases ht; exact Runs.refl s)⟩
  · exact ⟨fun a t ht => (by cases ht; exact runs_skip _ s), fun e t ht => by cases ht⟩

/-! ## The rules of the coefficient decoder -/

theorem runs_setDcdiff (v : Int) : Keeps Runs (setDcdiff v) := keeps_update fun _ => runs_data

theorem runs_dcVc1 (es : List (VlcEntry Nat)) : Keeps Runs (dcVc1Rule es) := by
  refine runs_bind runs_needBits fun _ => runs_bind (runs_decodeSym es) fun e => ?_
  split
  · exact runs_fail _
  · exact runs_bind (runs_readBits _) fun _ => runs_setDcdiff _

theorem runs_dcWmv2 (es : List (VlcEntry Nat)) : Keeps Runs (dcWmv2Rule es) := by
  refine runs_bind runs_needBits fun _ => runs_bind (runs_decodeSym es) fun e => ?_
  split
  · exact runs_fail _
  · split
    · exact runs_bind (runs_readBits _) fun _ => runs_bind runs_readBit fun _ => runs_setDcdiff _
    · split
      · exact runs_bind runs_readBit fun _ => runs_setDcdiff _
      · exact runs_setDcdiff _

theorem runs_decodeRle (es : List (VlcEntry AcSym)) : Keeps Runs (decodeRle es) := by
  refine runs_bind (runs_decodeSym es) fun e => ?_
  split
  · exact runs_pure _
  · exact runs_fail _

theorem runs_plainSym (run mag : Nat) (last : Bool) : Keeps Runs (plainSym run mag last) :=
  runs_bind runs_readBit fun _ => runs_pure _

theorem runs_escLevel (es : List (VlcEntry AcSym)) : Keeps Runs (escLevel es) :=
  runs_bind (runs_decodeRle es) fun ⟨_, _, _⟩ => runs_bind runs_readBit fun _ => runs_pure _

theorem runs_escRun (es : List (VlcEntry AcSym)) : Keeps Runs (escRun es) :=
  runs_bind (runs_decodeRle es) fun ⟨_, _, _⟩ => runs_bind runs_readBit fun _ => runs_pure _

theorem runs_escAbsVc1 : Keeps Runs escAbsVc1 :=
  runs_bind runs_readBit fun _ => runs_bind (runs_readBits _) fun _ => runs_bind (runs_readBits _) fun _ =>
    runs_bind runs_readBit fun _ => runs_pure _

theorem runs_escVc1 (es : List (VlcEntry AcSym)) : Keeps Runs (escVc1 es) := by
  refine runs_bind runs_readBit fun b0 => ?_
  split
  · exact runs_escLevel es
  · refine runs_bind runs_readBit fun b1 => ?_
    split
    · exact runs_escRun es
    · exact runs_escAbsVc1

theorem runs_acSymVc1 (es : List (VlcEntry AcSym)) : Keeps Runs (acSymVc1 es) := by
  refine runs_bind runs_needBits fun _ => runs_bind (runs_decodeSym es) fun e => ?_
  split
  · exact runs_plainSym _ _ _
  · exact runs_escVc1 es

/-- `n` bits are a number below `2^n`. -/
theorem bitsFrom_lt (s : State) (pos n : Nat) : bitsFrom s pos n < 2 ^ n := by
  induction n with
  | zero => simp [bitsFrom]
  | succ n ih =>
    have h : payloadBit s (pos + n) ≤ 1 := by
      unfold payloadBit bit01
      split
      · split <;> omega
      · omega
    simp only [bitsFrom, Nat.pow_succ]
    omega

theorem peekBits_lt (s : State) (n : Nat) : peekBits s n < 2 ^ n := bitsFrom_lt s _ n

/-- The count of R181 is at most 8 and moves the cursor alone. -/
theorem countZeros_ok {fuel ll : Nat} (h : ll ≤ 8) (s : State) :
    ∃ r t, countZeros fuel ll s = .ok r t ∧ r ≤ 8 ∧ Runs s t := by
  induction fuel generalizing ll s with
  | zero => exact ⟨ll, s, rfl, h, Runs.refl s⟩
  | succ fuel ih =>
    by_cases h8 : ll < 8
    · by_cases hp : peekBits s 1 = 0
      · obtain ⟨r, t, ht, hr, hk⟩ := ih (ll := ll + 1) (by omega) (skipBits 1 s)
        exact ⟨r, t, by simp [countZeros, h8, hp, ht], hr, (runs_skip 1 s).trans hk⟩
      · exact ⟨ll, skipBits 1 s, by simp [countZeros, h8, hp], h, runs_skip 1 s⟩
    · exact ⟨ll, s, by simp [countZeros, h8], h, Runs.refl s⟩

theorem runs_countZeros {fuel ll : Nat} (h : ll ≤ 8) : Keeps Runs (countZeros fuel ll) := by
  intro s
  obtain ⟨r, t, ht, -, hk⟩ := countZeros_ok (fuel := fuel) h s
  rw [ht]
  exact ⟨fun a u hu => (by cases hu; exact hk), fun e u hu => by cases hu⟩

theorem countZeros_le {fuel ll : Nat} (h : ll ≤ 8) (s : State) (a : Nat) (t : State)
    (ha : countZeros fuel ll s = .ok a t) : a ≤ 8 := by
  obtain ⟨r, u, hu, hr, -⟩ := countZeros_ok (fuel := fuel) h s
  rw [hu] at ha; cases ha; exact hr

/-- Storing escape-3 widths that are in range. -/
theorem runs_setEsc3LL {ll : Nat} (h : ll ≤ 8) :
    Keeps Runs (update fun s => { s with esc3LL := BitVec.ofNat 4 ll }) := keeps_update fun s => by
  constructor <;> first
    | rfl | exact id | exact .inl rfl | exact .inl ⟨rfl, rfl⟩
    | (intro _; show (BitVec.ofNat 4 ll).toNat ≤ 8
       rw [BitVec.toNat_ofNat, Nat.mod_eq_of_lt (by omega)]; exact h)

theorem runs_setEsc3RL {rl : Nat} (h : rl < 4) :
    Keeps Runs (update fun s => { s with esc3RL := BitVec.ofNat 4 (rl + 3) }) := keeps_update fun s => by
  constructor <;> first
    | rfl | exact id | exact .inl rfl | exact .inl ⟨rfl, rfl⟩
    | (intro _; show (BitVec.ofNat 4 (rl + 3)).toNat ≤ 6
       rw [BitVec.toNat_ofNat, Nat.mod_eq_of_lt (by omega)]; omega)

/-- A field that was read is below the power of two of its width. -/
theorem readBits_lt (n : Nat) (s : State) (a : Nat) (t : State) (h : readBits n s = .ok a t) :
    a < 2 ^ n := by
  cases h; exact peekBits_lt s n

/-- The escape-3 derivation writes widths in range (R181). -/
theorem runs_esc3Lengths : Keeps Runs esc3Lengths := by
  have trans : ∀ a b c, Runs a b → Runs b c → Runs a c := fun _ _ _ => Runs.trans
  have tail : ∀ {ll : Nat}, ll ≤ 8 → Keeps Runs (do
      update fun s => { s with esc3LL := BitVec.ofNat 4 ll }
      let rl ← readBits 2
      update fun s => { s with esc3RL := BitVec.ofNat 4 (rl + 3) }) := fun h =>
    runs_bind (runs_setEsc3LL h) fun _ =>
      keeps_bind_of trans (runs_readBits 2) (readBits_lt 2) fun _ => runs_setEsc3RL
  refine runs_bind (runs_look _) fun q => ?_
  split
  · refine keeps_bind_of trans (runs_readBits 3) (readBits_lt 3) fun l3 h3 => ?_
    split
    · exact keeps_bind_of trans (runs_countZeros (by omega)) (countZeros_le (by omega)) fun _ => tail
    · exact keeps_bind_of trans (runs_pure l3) (fun _ _ _ h => by cases h; rfl) fun a (h : a = l3) =>
        tail (by omega)
  · exact keeps_bind_of trans (runs_countZeros (by omega)) (countZeros_le (by omega)) fun _ => tail

theorem runs_escAbsWmv2 : Keeps Runs escAbsWmv2 := by
  have tail : ∀ last : Bool, Keeps Runs (do
      let ll ← look State.esc3LL
      let rl ← look State.esc3RL
      let run ← readBits rl.toNat
      let neg ← readBit
      let mag ← readBits ll.toNat
      pure ⟨run, signed neg mag, last⟩ : Engine RunLevel) := fun _ =>
    runs_bind (runs_look _) fun _ => runs_bind (runs_look _) fun _ => runs_bind (runs_readBits _) fun _ =>
    runs_bind runs_readBit fun _ => runs_bind (runs_readBits _) fun _ => runs_pure _
  refine runs_bind runs_readBit fun last => runs_bind (runs_look _) fun ll => ?_
  dsimp only
  split
  · exact runs_bind runs_esc3Lengths fun _ => tail last
  · exact tail last

theorem runs_escWmv2 (es : List (VlcEntry AcSym)) : Keeps Runs (escWmv2 es) := by
  refine runs_bind runs_readBit fun b0 => ?_
  split
  · exact runs_escLevel es
  · refine runs_bind runs_readBit fun b1 => ?_
    split
    · exact runs_escRun es
    · exact runs_escAbsWmv2

theorem runs_acSymWmv2 (es : List (VlcEntry AcSym)) : Keeps Runs (acSymWmv2 es) := by
  refine runs_bind runs_needBits fun _ => runs_bind (runs_decodeSym es) fun e => ?_
  split
  · exact runs_plainSym _ _ _
  · exact runs_escWmv2 es

theorem runs_acSymResult {sym : Engine RunLevel} (h : Keeps Runs sym) : Keeps Runs (acSymResult sym) :=
  runs_bind h fun _ => keeps_update fun _ => runs_data

theorem runs_place (scan : List Nat) (idx : Int) (run : Nat) (level : Int) :
    Keeps Runs (place scan idx run level) := by
  intro s
  simp only [place]
  split
  · exact ⟨fun a t ht => (by cases ht), fun e t ht => (by cases ht; exact Runs.refl s)⟩
  · refine ⟨fun a t ht => ?_, fun e t ht => by cases ht⟩
    cases ht; exact runs_data

theorem runs_acLoop {sym : Engine RunLevel} (h : Keeps Runs sym) (scan : List Nat) (fuel : Nat) (idx : Int)
    (n : Nat) : Keeps Runs (acLoop sym scan fuel idx n) := by
  induction fuel generalizing idx n with
  | zero => exact runs_fail _
  | succ fuel ih =>
    refine runs_bind h fun r => runs_bind (runs_place _ _ _ _) fun idx' => runs_bind ?_ fun _ => ?_
    · exact keeps_update fun _ => runs_data
    · split
      · exact runs_pure _
      · exact ih _ _

theorem runs_acBlock {sym : Engine RunLevel} (h : Keeps Runs sym) (scan : List Nat) (intra : Bool) :
    Keeps Runs (acBlockRule sym scan intra) :=
  runs_bind (runs_acLoop h _ _ _ _) fun ⟨_, _⟩ => keeps_update fun _ => runs_data

/-! ## Every command but the six -/

/-- A cache store keeps the canonical form. -/
theorem storeCache_wf {g : Grid Word} (h : g.wf) (mx my b : Nat) (f : Nat → Word) (n : Nat) :
    (storeCache g mx my b f n).wf := by
  induction n with
  | zero => exact h
  | succ n ih => exact Grid.wf_write ih _ _

/-- What a command other than the six of R381 may come to, run in `s`: what `Runs` allows, perhaps
followed by a `raise`. -/
def Does (s : State) (o : Host.Outcome State Fault Refusal) : Prop :=
  ∃ u, Runs s u ∧ (o = .next u ∨ ∃ e, s.err = false ∧ o = .next (raise e u))

theorem does_command {rule : Option (Engine Unit)} {s : State} (h : ∀ m, rule = some m → Keeps Runs m) :
    Does s (command rule s) := command_cases h Runs.refl

theorem does_some {m : Engine Unit} {s : State} (h : Keeps Runs m) : Does s (command (some m) s) :=
  does_command fun _ hm => by cases hm; exact h

theorem does_legal {l : Bool} {m : Engine Unit} {s : State} (h : Keeps Runs m) :
    Does s (command (legalWhen l m) s) := by
  cases l
  · exact does_command fun _ hm => by cases hm
  · exact does_some h

theorem does_map {o : Option α} {f : α → Engine Unit} {s : State} (h : ∀ a, Keeps Runs (f a)) :
    Does s (command (o.map f) s) := by
  cases o
  · exact does_command fun _ hm => by cases hm
  · exact does_some (h _)

theorem does_data {f : State → State} {s : State} (h : ∀ s, Runs s (f s)) :
    Does s (command (some (update f)) s) := does_some (keeps_update h)

theorem putBlock_shape (s : State) (b : Nat) (f : Frame) (g : Nat → Byte → Byte) :
    (putBlock s b f g).wf ∧ (putBlock s b f g).mbw = f.mbw ∧ (putBlock s b f g).mbh = f.mbh := by
  unfold putBlock
  exact ⟨Frame.wf_mapPix _ _, Frame.mbw_mapPix _ _, Frame.mbh_mapPix _ _⟩

theorem commitFrame_shape (s : State) (avg : Bool) (f : Frame) :
    (commitFrame s avg f).wf ∧ (commitFrame s avg f).mbw = f.mbw ∧ (commitFrame s avg f).mbh = f.mbh := by
  unfold commitFrame
  exact ⟨Frame.wf_mapPix _ _, Frame.mbw_mapPix _ _, Frame.mbh_mapPix _ _⟩

/-- A pixel command that writes `CUR` sample by sample and marks its macroblock. -/
theorem runs_writeCur {g : State → Frame → Frame}
    (hg : ∀ s f, (g s f).wf ∧ (g s f).mbw = f.mbw ∧ (g s f).mbh = f.mbh) :
    Keeps Runs (pixelCommand fun f => update fun s =>
      { s with cur := some (g s f), recon := markRecon s }) := by
  refine keeps_pixelCommand Runs.refl fun f s hc => ?_
  refine ⟨fun a t ht => ?_, fun e t ht => by cases ht⟩
  cases ht
  constructor <;> first
    | rfl | exact id | exact .inl rfl | exact .inl ⟨rfl, rfl⟩
    | exact fun h => Grid.wf_write h _ _
    | exact .inr ⟨f, _, hc, rfl, hg _ _⟩

theorem execSetMb_does (mbx mby : BitVec 12) (s : State) : Does s (execSetMb mbx mby s) := by
  unfold execSetMb
  cases he : s.err with
  | true => exact ⟨s, Runs.refl s, .inl (command_of_err he)⟩
  | false =>
    cases hl : legalMb s mbx mby with
    | false => exact ⟨s, Runs.refl s, .inr ⟨_, he, command_none he⟩⟩
    | true =>
      refine ⟨_, ?_, .inl ((command_some he).trans (finish_ok (update_run _ _)))⟩
      simp only [legalMb, Bool.and_eq_true, decide_eq_true_eq] at hl
      constructor <;> first | rfl | exact id | exact .inl rfl | exact .inr hl

theorem execBrInit_does (off : BitVec 24) (s : State) : Does s (execBrInit off s) :=
  does_data fun s => by
    constructor <;> first | rfl | exact id | exact .inl ⟨rfl, rfl⟩ | exact .inr rfl | exact .inl rfl

theorem execBrNeed_does (n : BitVec 24) (s : State) : Does s (execBrNeed n s) :=
  does_some (runs_test fun s => by
    unfold brNeedRule
    split
    · exact .inr ⟨_, rfl⟩
    · exact .inl ⟨_, rfl⟩)

theorem execVlcDecode_does (t : BitVec 8) (s : State) : Does s (execVlcDecode t s) :=
  does_map fun tb => by
    cases tb <;> exact runs_bind (runs_decodeSym _) fun _ => keeps_update fun _ => runs_data

theorem execAcBlockVc1_does (t : BitVec 8) (sc : BitVec 4) (intra : Bool) (s : State) :
    Does s (execAcBlockVc1 t sc intra s) := by
  unfold execAcBlockVc1
  cases acTable s.params t with
  | none => exact does_command fun _ hm => by cases hm
  | some es => exact does_map fun scan => runs_acBlock (runs_acSymVc1 es) _ _

theorem execAcBlockWmv2_does (t : BitVec 8) (sc : BitVec 4) (intra : Bool) (s : State) :
    Does s (execAcBlockWmv2 t sc intra s) := by
  unfold execAcBlockWmv2
  cases acTable s.params t with
  | none => exact does_command fun _ hm => by cases hm
  | some es => exact does_map fun scan => runs_acBlock (runs_acSymWmv2 es) _ _

theorem execPredStore_does (b : BitVec 3) (s : State) : Does s (execPredStore b s) :=
  does_legal (runs_bind runs_needPicture fun _ => keeps_update fun s => by
    constructor <;> first
      | rfl | exact id | exact .inl rfl | exact .inl ⟨rfl, rfl⟩
      | exact fun h => Grid.wf_write h _ _
      | exact fun h => storeCache_wf h _ _ _ _ _)

theorem execCbppred_does (b : BitVec 2) (raw : Bool) (s : State) : Does s (execCbppred b raw s) :=
  does_some (runs_bind runs_needPicture fun _ => keeps_update fun s => by
    constructor <;> first
      | rfl | exact id | exact .inl rfl | exact .inl ⟨rfl, rfl⟩ | exact fun h => Grid.wf_write h _ _)

theorem execMvstore_does (skipped : Bool) (s : State) : Does s (execMvstore skipped s) :=
  does_some (runs_bind runs_needPicture fun _ => keeps_update fun s => by
    constructor <;> first
      | rfl | exact id | exact .inl rfl | exact .inl ⟨rfl, rfl⟩ | exact fun h => Grid.wf_write h _ _)

theorem execSetMv_does (sel addp : Bool) (x y : BitVec 11) (s : State) :
    Does s (execSetMv sel addp x y s) := by
  cases sel <;> exact does_data fun _ => runs_data

theorem execMvBdirect_does (s : State) : Does s (execMvBdirect s) := by
  refine does_some fun s => ?_
  unfold mvBdirectRule
  split
  · exact ⟨fun a t ht => (by cases ht), fun e t ht => (by cases ht; exact Runs.refl s)⟩
  · exact ⟨fun a t ht => (by cases ht; exact runs_data), fun e t ht => by cases ht⟩

theorem execMcBilin_does (k : Bool) (s : State) : Does s (execMcBilin k s) := by
  refine does_some (keeps_pixelCommand Runs.refl fun f s hc => ?_)
  unfold mcBilinRule
  split <;> first
    | exact ⟨fun a t ht => (by cases ht), fun e t ht => (by cases ht; exact Runs.refl s)⟩
    | exact ⟨fun a t ht => (by cases ht; exact runs_data), fun e t ht => by cases ht⟩

theorem execMcMspel_does (hshift : Bool) (s : State) : Does s (execMcMspel hshift s) := by
  refine does_some (keeps_pixelCommand Runs.refl fun f s hc => ?_)
  unfold mcMspelRule
  split <;> first
    | exact ⟨fun a t ht => (by cases ht), fun e t ht => (by cases ht; exact Runs.refl s)⟩
    | exact ⟨fun a t ht => (by cases ht; exact runs_data), fun e t ht => by cases ht⟩

theorem transform_does (f : Vector Word 64 → Vector Word 64) (s : State) : Does s (transform f s) :=
  does_data fun _ => runs_data

theorem execSetMquant_does (mq : BitVec 5) (s : State) : Does s (execSetMquant mq s) :=
  does_legal (keeps_update fun _ => runs_data)

theorem execBrReadBit_does (s : State) : Does s (execBrReadBit s) :=
  does_some (runs_bind runs_readBit fun _ => keeps_update fun _ => runs_data)

theorem execBrReadBits_does (n : BitVec 6) (s : State) : Does s (execBrReadBits n s) :=
  does_legal (runs_bind (runs_readBits _) fun _ => keeps_update fun _ => runs_data)

theorem execBrReadSigned_does (n : BitVec 6) (s : State) : Does s (execBrReadSigned n s) :=
  does_legal (runs_bind (runs_readBits _) fun _ => keeps_update fun _ => runs_data)

theorem execBrPeek_does (n : BitVec 6) (s : State) : Does s (execBrPeek n s) :=
  does_legal (keeps_update fun _ => runs_data)

theorem execBrSkip_does (n : BitVec 24) (s : State) : Does s (execBrSkip n s) :=
  does_data fun s => runs_skip _ s

theorem execBrBitsLeft_does (s : State) : Does s (execBrBitsLeft s) :=
  does_data fun _ => runs_data

theorem execBrIsEmpty_does (s : State) : Does s (execBrIsEmpty s) :=
  does_data fun _ => runs_data

theorem execVlcMaxlevel_does (t : BitVec 8) (last : Bool) (run : BitVec 6) (s : State) : Does s (execVlcMaxlevel t last run s) :=
  does_map fun _ => keeps_update fun _ => runs_data

theorem execVlcMaxrun_does (t : BitVec 8) (last : Bool) (level : BitVec 8) (s : State) : Does s (execVlcMaxrun t last level s) :=
  does_map fun _ => keeps_update fun _ => runs_data

theorem execDcVc1_does (t : BitVec 8) (s : State) : Does s (execDcVc1 t s) :=
  does_map runs_dcVc1

theorem execDcWmv2_does (t : BitVec 8) (s : State) : Does s (execDcWmv2 t s) :=
  does_map runs_dcWmv2

theorem execClrCoef_does (s : State) : Does s (execClrCoef s) :=
  does_data fun _ => runs_data

theorem execAcSymVc1_does (t : BitVec 8) (s : State) : Does s (execAcSymVc1 t s) :=
  does_map fun es => runs_acSymResult (runs_acSymVc1 es)

theorem execAcSymWmv2_does (t : BitVec 8) (s : State) : Does s (execAcSymWmv2 t s) :=
  does_map fun es => runs_acSymResult (runs_acSymWmv2 es)

theorem execCoefWr_does (idx : BitVec 6) (v : BitVec 16) (s : State) : Does s (execCoefWr idx v s) :=
  does_data fun _ => runs_data

theorem execDqVc1_does (b : BitVec 3) (intra : Bool) (s : State) : Does s (execDqVc1 b intra s) :=
  does_legal (keeps_update fun _ => runs_data)

theorem execDqWmv2_does (b : BitVec 3) (intra : Bool) (s : State) : Does s (execDqWmv2 b intra s) :=
  does_legal (keeps_update fun _ => runs_data)

theorem execBlkPut_does (b : BitVec 3) (s : State) : Does s (execBlkPut b s) :=
  does_legal (runs_writeCur (g := fun s f => putBlock s b.toNat f (putSample s)) fun _ _ => putBlock_shape _ _ _ _)

theorem execBlkAdd_does (b : BitVec 3) (s : State) : Does s (execBlkAdd b s) :=
  does_legal (runs_writeCur (g := fun s f => putBlock s b.toNat f (addSample s)) fun _ _ => putBlock_shape _ _ _ _)

theorem execDcpredVc1_does (b : BitVec 3) (s : State) : Does s (execDcpredVc1 b s) :=
  does_legal (runs_bind runs_needPicture fun _ => keeps_update fun _ => runs_data)

theorem execDcpredWmv2_does (b : BitVec 3) (s : State) : Does s (execDcpredWmv2 b s) :=
  does_legal (runs_bind runs_needPicture fun _ => keeps_update fun _ => runs_data)

theorem execAcpred_does (b : BitVec 3) (s : State) : Does s (execAcpred b s) :=
  does_legal (runs_bind runs_needPicture fun _ => keeps_update fun _ => runs_data)

theorem execMvpred_does (s : State) : Does s (execMvpred s) :=
  does_some (runs_bind runs_needPicture fun _ => keeps_update fun _ => runs_data)

theorem execMcCommit_does (avg : Bool) (s : State) : Does s (execMcCommit avg s) :=
  does_some (runs_writeCur (g := fun s f => commitFrame s avg f) fun _ _ => commitFrame_shape _ _ _)

/-- A command other than the six of R381 does at most what `Runs` allows, and may end with a `raise`. -/
theorem exec_cases {i : Instr} (hi : runsUnderError i = false) (s : State) : Does s (exec i s) := by
  cases i with
  | nop => cases hi
  | resize _ _ => cases hi
  | wrcfg _ _ => cases hi
  | rdcfg _ => cases hi
  | frameBegin _ => cases hi
  | frameEnd => cases hi
  | setMb mbx mby => exact execSetMb_does mbx mby s
  | setMquant mq => exact execSetMquant_does mq s
  | brInit off => exact execBrInit_does off s
  | brReadBit => exact execBrReadBit_does s
  | brReadBits n => exact execBrReadBits_does n s
  | brReadSigned n => exact execBrReadSigned_does n s
  | brPeek n => exact execBrPeek_does n s
  | brSkip n => exact execBrSkip_does n s
  | brBitsLeft => exact execBrBitsLeft_does s
  | brIsEmpty => exact execBrIsEmpty_does s
  | brNeed n => exact execBrNeed_does n s
  | vlcDecode t => exact execVlcDecode_does t s
  | vlcMaxlevel t last run => exact execVlcMaxlevel_does t last run s
  | vlcMaxrun t last level => exact execVlcMaxrun_does t last level s
  | dcVc1 t => exact execDcVc1_does t s
  | dcWmv2 t => exact execDcWmv2_does t s
  | clrCoef => exact execClrCoef_does s
  | acSymVc1 t => exact execAcSymVc1_does t s
  | acBlockVc1 t sc intra => exact execAcBlockVc1_does t sc intra s
  | acSymWmv2 t => exact execAcSymWmv2_does t s
  | acBlockWmv2 t sc intra => exact execAcBlockWmv2_does t sc intra s
  | coefWr idx v => exact execCoefWr_does idx v s
  | dqVc1 b intra => exact execDqVc1_does b intra s
  | dqWmv2 b intra => exact execDqWmv2_does b intra s
  | idct8x8 => exact transform_does _ s
  | idct8x4A => exact transform_does _ s
  | idct8x4B => exact transform_does _ s
  | idct4x8A => exact transform_does _ s
  | idct4x8B => exact transform_does _ s
  | idct4x4A => exact transform_does _ s
  | idct4x4B => exact transform_does _ s
  | widct8x8 => exact transform_does _ s
  | widct8x4 => exact transform_does _ s
  | widct4x8 => exact transform_does _ s
  | blkPut b => exact execBlkPut_does b s
  | blkAdd b => exact execBlkAdd_does b s
  | dcpredVc1 b => exact execDcpredVc1_does b s
  | dcpredWmv2 b => exact execDcpredWmv2_does b s
  | predStore b => exact execPredStore_does b s
  | acpred b => exact execAcpred_does b s
  | cbppred b raw => exact execCbppred_does b raw s
  | mvpred => exact execMvpred_does s
  | setMv sel addp x y => exact execSetMv_does sel addp x y s
  | mvstore skipped => exact execMvstore_does skipped s
  | mvBdirect => exact execMvBdirect_does s
  | mcBilin k => exact execMcBilin_does k s
  | mcMspel hshift => exact execMcMspel_does hshift s
  | mcCommit avg => exact execMcCommit_does avg s

end Sys2Proof.Machine
end

