-- ==== Sys2Proof/Tests/Slice0.lean ====
section
/-! SUPPORT. Tests of the model against the vectors of spec/95_test_vectors.md (named in each docstring),
the well-formedness smoke, the decoding of one written-out word per command, and a witness for the
hypotheses of every statement of Certificates/Slice0/Obligations.lean. -/

namespace Sys2Proof.Tests

set_option Elab.async false

open Sys2Proof.Machine

/-! ## States to test in -/

/-- The toy parameter instance of 95_test_vectors.md part 0. -/
def toy : ParamData where
  vlc := [
    .ac [⟨1, 1, .rle 0 1 false⟩, ⟨1, 2, .rle 0 1 true⟩, ⟨1, 3, .rle 1 1 false⟩, ⟨1, 4, .esc⟩,
      ⟨1, 5, .rle 0 2 true⟩],
    .scalar [⟨1, 1, 0⟩, ⟨1, 2, 1⟩, ⟨1, 3, 2⟩, ⟨1, 4, 3⟩]]
  maxVlcBits := 5
  scan := [some [0, 1, 8, 16, 9, 2, 3, 10, 17, 24, 32, 25, 18, 11, 4, 5, 12, 19, 26, 33, 40, 48, 41, 34, 27,
    20, 13, 6, 7, 14, 21, 28, 35, 42, 49, 56, 57, 50, 43, 36, 29, 22, 15, 23, 30, 37, 44, 51, 58, 59, 52, 45,
    38, 31, 39, 46, 53, 60, 61, 54, 47, 55, 62, 63]]
  nuStep := List.replicate 32 1
  vc1DcStep := List.replicate 32 1
  wmv2DcScaleY := List.replicate 32 1
  wmv2DcScaleC := List.replicate 32 1
  dcSentinelVc1 := 100
  dcSentinelWmv2 := 100
  putBiasVc1 := 0
  putBiasWmv2 := 0
  payloadMax := 4

theorem toy_ok : toy.wf = true := by decide +kernel

/-- The state after reset of an engine built with the toy parameters. -/
def base : State := { State.reset with params := ⟨toy, toy_ok⟩, dcb := Grid.fresh 100 }

/-- Payload bytes from address `a` up. -/
def bytesFrom : Nat → List Byte → Memory
  | _, [] => []
  | a, v :: rest => (a, v) :: bytesFrom (a + 1) rest

/-- After `BR_INIT 0` over these payload bytes. -/
def reader (bytes : List Byte) : State :=
  { base with
    payload := bytesFrom 0 bytes
    payloadLen := BitVec.ofNat 32 bytes.length
    brLen := BitVec.ofNat 32 (8 * bytes.length) }

/-- The reader of V40 with its cursor at bit `p`. -/
def readerAt (p : Word) : State := { reader [0xB5, 0x3C] with brPos := p }

/-- Writes configuration registers. -/
def withCfg (s : State) (l : List (Nat × BitVec 16)) : State :=
  { s with cfg := l.foldl (fun w c => w.setIfInBounds c.1 c.2) s.cfg }

/-- Writes coefficients. -/
def withCoef (s : State) (l : List (Nat × Int)) : State :=
  { s with coef := l.foldl (fun w c => w.setIfInBounds c.1 (BitVec.ofInt 32 c.2)) s.coef }

/-- After `RESIZE w, h`. -/
def sized (w h : BitVec 12) : State := { base with mbw := w, mbh := h }

/-- A frame of one macroblock whose luma row 0 is given and repeated in every row; chroma 128. -/
def rowFrame (row : List Byte) : Frame :=
  Frame.build 1 1 fun p x _ => if p = .y then row.getD x 0 else 128

/-- An open frame of one macroblock, with both working references, at `PQUANT = 4`. -/
def openIn (f r0 r1 : Frame) : State :=
  { withCfg (sized 1 1) [(2, 4)] with
    fstate := .opened, cur := some f, wref0 := some r0, wref1 := some r1 }

/-- An open default frame. -/
def opened : State := openIn (Frame.fresh 1 1) (Frame.fresh 1 1) (Frame.fresh 1 1)

/-- What is true of the next state, if there is one. -/
def after {α : Type} (o : Host.Outcome State Fault Refusal) (f : State → α) : Option α :=
  match o with
  | .next t => some (f t)
  | .fault _ => none
  | .refused _ => none

/-! ## Well-formedness and parameters -/

/-- Each check of `Instr.wf` refuses an ill-formed command, and accepts the boundary (R103). -/
theorem test_wf_refuses :
    (Instr.brReadBits 33).wf = false ∧ (Instr.brReadSigned 33).wf = false ∧ (Instr.brPeek 63).wf = false
      ∧ (Instr.brReadBits 32).wf = true
      ∧ (Instr.dqVc1 6 false).wf = false ∧ (Instr.dqWmv2 7 true).wf = false ∧ (Instr.blkPut 6).wf = false
      ∧ (Instr.blkAdd 7).wf = false ∧ (Instr.dcpredVc1 6).wf = false ∧ (Instr.dcpredWmv2 6).wf = false
      ∧ (Instr.predStore 6).wf = false ∧ (Instr.acpred 6).wf = false ∧ (Instr.acpred 5).wf = true
      ∧ (Instr.setMquant 0).wf = false ∧ (Instr.setMquant 31).wf = true
      ∧ (Instr.resize 0 1).wf = false ∧ (Instr.resize 1 0).wf = false
      ∧ (Instr.resize 4095 4095).wf = true := by decide

/-- Each range of R10 refuses an instance that breaks it. -/
theorem test_params_refused :
    Params.make? { toy with vlc := [.scalar [⟨1, 1, 0⟩, ⟨3, 2, 1⟩]] } = none
      ∧ Params.make? { toy with vlc := [.scalar [⟨0, 6, 0⟩]] } = none
      ∧ Params.make? { toy with vlc := [.scalar [⟨0, 0, 0⟩]] } = none
      ∧ Params.make? { toy with vlc := [.scalar [⟨2, 1, 0⟩]] } = none
      ∧ Params.make? { toy with vlc := [.ac [⟨1, 1, .rle 64 1 false⟩]] } = none
      ∧ Params.make? { toy with vlc := [.ac [⟨1, 1, .rle 0 0 false⟩]] } = none
      ∧ Params.make? { toy with vlc := [.ac [⟨1, 1, .rle 0 256 false⟩]] } = none
      ∧ Params.make? { toy with vlc := [.scalar [⟨1, 1, 2147483648⟩]] } = none
      ∧ Params.make? { toy with scan := [some (List.replicate 16 0)] } = none
      ∧ Params.make? { toy with vc1DcStep := List.replicate 32 0 } = none
      ∧ (Params.make? toy).isSome = true := by decide +kernel

/-! ## Decoding: one written-out word per command (30_encoding.md R103, R108; 95_test_vectors.md) -/

theorem test_decode_frame_control :
    decode 0x00000000 = .ok .nop ∧ decode 0x01002001 = .ok (.resize 2 1)
      ∧ decode 0x02020004 = .ok (.wrcfg 2 4) ∧ decode 0x03150000 = .ok (.rdcfg 21)
      ∧ decode 0x05000001 = .ok (.frameBegin true) ∧ decode 0x06000000 = .ok .frameEnd
      ∧ decode 0x07001002 = .ok (.setMb 1 2) ∧ decode 0x08000007 = .ok (.setMquant 7) := by decide

theorem test_decode_bit_reader :
    decode 0x10000014 = .ok (.brInit 20) ∧ decode 0x11000000 = .ok .brReadBit
      ∧ decode 0x12000010 = .ok (.brReadBits 16) ∧ decode 0x13000004 = .ok (.brReadSigned 4)
      ∧ decode 0x14000008 = .ok (.brPeek 8) ∧ decode 0x15000064 = .ok (.brSkip 100)
      ∧ decode 0x16000000 = .ok .brBitsLeft ∧ decode 0x17000000 = .ok .brIsEmpty
      ∧ decode 0x18000003 = .ok (.brNeed 3) := by decide

theorem test_decode_vlc_and_coefficients :
    decode 0x20000001 = .ok (.vlcDecode 1) ∧ decode 0x21000B00 = .ok (.vlcMaxlevel 0 true 5)
      ∧ decode 0x22000500 = .ok (.vlcMaxrun 0 true 2) ∧ decode 0x28000001 = .ok (.dcVc1 1)
      ∧ decode 0x29000001 = .ok (.dcWmv2 1) ∧ decode 0x2A000000 = .ok .clrCoef
      ∧ decode 0x2B000000 = .ok (.acSymVc1 0) ∧ decode 0x2C001000 = .ok (.acBlockVc1 0 0 true)
      ∧ decode 0x2D000000 = .ok (.acSymWmv2 0) ∧ decode 0x2E000305 = .ok (.acBlockWmv2 5 3 false)
      ∧ decode 0x2F05FFFF = .ok (.coefWr 5 (-1)) := by decide

theorem test_decode_dequant_and_transforms :
    decode 0x30000008 = .ok (.dqVc1 0 true) ∧ decode 0x31000005 = .ok (.dqWmv2 5 false)
      ∧ decode 0x40000000 = .ok .idct8x8 ∧ decode 0x40000001 = .ok .idct8x4A
      ∧ decode 0x40000002 = .ok .idct8x4B ∧ decode 0x40000003 = .ok .idct4x8A
      ∧ decode 0x40000004 = .ok .idct4x8B ∧ decode 0x40000005 = .ok .idct4x4A
      ∧ decode 0x40000006 = .ok .idct4x4B ∧ decode 0x41000000 = .ok .widct8x8
      ∧ decode 0x41000001 = .ok .widct8x4 ∧ decode 0x41000002 = .ok .widct4x8
      ∧ decode 0x42000004 = .ok (.blkPut 4) ∧ decode 0x43000001 = .ok (.blkAdd 1) := by decide

theorem test_decode_prediction_and_motion :
    decode 0x50000003 = .ok (.dcpredVc1 3) ∧ decode 0x51000001 = .ok (.dcpredWmv2 1)
      ∧ decode 0x52000005 = .ok (.predStore 5) ∧ decode 0x53000002 = .ok (.acpred 2)
      ∧ decode 0x54000011 = .ok (.cbppred 1 true) ∧ decode 0x58000000 = .ok .mvpred
      ∧ decode 0x597FF802 = .ok (.setMv false true (-1) 2)
      ∧ decode 0x59A003FF = .ok (.setMv true false (-1024) 1023)
      ∧ decode 0x5A000001 = .ok (.mvstore true) ∧ decode 0x5B000000 = .ok .mvBdirect
      ∧ decode 0x60000001 = .ok (.mcBilin true) ∧ decode 0x61000001 = .ok (.mcMspel true)
      ∧ decode 0x62000001 = .ok (.mcCommit true) := by decide

/-- Unassigned opcodes, reserved bits and unused selectors are refused by name (R102; V44.12, V44.13,
V48.21, V48.22). -/
theorem test_decode_refuses :
    decode 0x04000000 = .error (.unknownOpcode 4) ∧ decode 0xFF000000 = .error (.unknownOpcode 255)
      ∧ decode 0x00000001 = .error (.reservedBits 0 1) ∧ decode 0x54000014 = .error (.reservedBits 84 20)
      ∧ decode 0x40000007 = .error (.illegalSelector 64 7)
      ∧ decode 0x41000003 = .error (.illegalSelector 65 3) := by decide

/-- The host's numbering of words: the table's row and the instruction run first (R100). -/
theorem test_decode_table_word :
    decodeTableWord 32 0x12000005 = some (.brReadBits 5) ∧ decodeTableWord 32 0x04000000 = none := by decide

/-! ## The bit reader (V40) -/

/-- V40.1, V40.2. -/
theorem test_br_init :
    after (exec (.brInit 0) { reader [0xB5, 0x3C] with brLen := 0, brPos := 9 })
        (fun t => (t.brPos, t.brLen)) = some (0, 16)
      ∧ after (exec (.brInit 20) (readerAt 0)) (fun t => (t.brPos, portStatus t)) = some (20, 0x8000) := by
  decide +kernel

/-- V40.3, V40.4. -/
theorem test_br_read_bit :
    after (exec .brReadBit (readerAt 0)) (fun t => (t.res0, t.brPos)) = some (1, 1)
      ∧ after (exec .brReadBit (readerAt 16)) (fun t => (t.res0, t.brPos)) = some (0, 17) := by
  decide +kernel

/-- V40.5, V40.7, V40.8, V40.9. -/
theorem test_br_read_bits :
    after (exec (.brReadBits 3) (readerAt 0)) (fun t => (t.res0, t.brPos)) = some (5, 3)
      ∧ after (exec (.brReadBits 16) (readerAt 0)) (fun t => (t.res0, t.brPos)) = some (0xB53C, 16)
      ∧ after (exec (.brReadBits 32) (readerAt 0)) (fun t => (t.res0, t.brPos)) = some (0xB53C0000, 32)
      ∧ after (exec (.brReadBits 33) (readerAt 0)) (fun t => (t.ecode, t.brPos)) = some (6, 0) := by
  decide +kernel

/-- V40.10, V40.11, V40.12, V40.13. -/
theorem test_br_read_signed :
    after (exec (.brReadSigned 4) (readerAt 3)) (fun t => (t.res0, t.brPos)) = some (0xFFFFFFFA, 7)
      ∧ after (exec (.brReadSigned 1) (readerAt 0)) (fun t => (t.res0, t.brPos)) = some (0xFFFFFFFF, 1)
      ∧ after (exec (.brReadSigned 4) (readerAt 12)) (fun t => (t.res0, t.brPos)) = some (0xFFFFFFFC, 16)
      ∧ after (exec (.brReadSigned 0) (readerAt 0)) (fun t => (t.res0, t.brPos)) = some (0, 0) := by
  decide +kernel

/-- V40.14, V40.15. -/
theorem test_br_peek :
    after (exec (.brPeek 4) (readerAt 7)) (fun t => (t.res0, t.brPos)) = some (9, 7)
      ∧ after (exec (.brPeek 8) (readerAt 12)) (fun t => (t.res0, t.brPos)) = some (0xC0, 12) := by
  decide +kernel

/-- V40.16, and the saturation of R131. -/
theorem test_br_skip :
    after (exec (.brSkip 6) (readerAt 7)) State.brPos = some 13
      ∧ after (exec (.brSkip 6) (readerAt 0xFFFFFFFB)) State.brPos = some 0xFFFFFFFF := by decide +kernel

/-- V40.18 to V40.21. -/
theorem test_br_left_and_empty :
    after (exec .brBitsLeft (readerAt 13)) State.res0 = some 3
      ∧ after (exec .brBitsLeft (readerAt 100)) State.res0 = some 0
      ∧ after (exec .brIsEmpty (readerAt 15)) State.res0 = some 0
      ∧ after (exec .brIsEmpty (readerAt 16)) State.res0 = some 1 := by decide +kernel

/-- V40.22, V40.23, V40.24. -/
theorem test_br_need :
    after (exec (.brNeed 3) (readerAt 13)) State.err = some false
      ∧ after (exec (.brNeed 4) (readerAt 13)) (fun t => (t.err, t.ecode, t.errpos)) = some (true, 5, 13)
      ∧ after (exec (.brNeed 0) (readerAt 100)) State.err = some false := by decide +kernel

/-! ## Variable-length codes (V41, L1.1) -/

/-- V41.1, V41.2, V41.4, V41.6; L1.1 for `ESC` and `(0, 2, 1)`. -/
theorem test_vlc_decode :
    after (exec (.vlcDecode 0) (reader [0x3F])) (fun t => (t.res0, t.res1, t.brPos)) = some (0x101, 3, 3)
      ∧ after (exec (.vlcDecode 0) (reader [0x1F])) (fun t => (t.res0, t.res1, t.brPos))
        = some (0xFFFFFFFF, 4, 4)
      ∧ after (exec (.vlcDecode 0) (reader [0x08])) (fun t => (t.res0, t.res1, t.brPos))
        = some (0x10002, 5, 5)
      ∧ after (exec (.vlcDecode 0) (reader [0x07])) (fun t => (t.ecode, t.brPos)) = some (1, 0)
      ∧ after (exec (.vlcDecode 1) (reader [0x10])) (fun t => (t.res0, t.res1)) = some (3, 4)
      ∧ after (exec (.vlcDecode 2) (reader [0x10])) State.ecode = some 6 := by decide +kernel

/-- V41.7 to V41.13. -/
theorem test_vlc_escape_tables :
    after (exec (.vlcMaxlevel 0 true 0) base) State.res0 = some 2
      ∧ after (exec (.vlcMaxlevel 0 false 1) base) State.res0 = some 1
      ∧ after (exec (.vlcMaxlevel 0 true 5) base) State.res0 = some 0
      ∧ after (exec (.vlcMaxlevel 1 false 0) base) State.ecode = some 6
      ∧ after (exec (.vlcMaxrun 0 false 1) base) State.res0 = some 1
      ∧ after (exec (.vlcMaxrun 0 true 2) base) State.res0 = some 0
      ∧ after (exec (.vlcMaxrun 0 false 0) base) State.res0 = some 0 := by decide +kernel

/-! ## Coefficients (V42) -/

/-- V42.1, V42.2, V42.5, V42.7. -/
theorem test_dc_vc1 :
    after (exec (.dcVc1 1) (reader [0x38])) (fun t => (t.dcdiff, t.res0, t.brPos)) = some (3, 3, 5)
      ∧ after (exec (.dcVc1 1) (reader [0x14])) (fun t => (t.dcdiff, t.brPos)) = some (-5, 7)
      ∧ after (exec (.dcVc1 1) (reader [0x40])) State.dcdiff = some (-1)
      ∧ after (exec (.dcVc1 1) base) State.ecode = some 4 := by decide +kernel

/-- V42.8, V42.9, V42.10. -/
theorem test_dc_wmv2 :
    after (exec (.dcWmv2 1) (reader [0x30])) (fun t => (t.dcdiff, t.brPos)) = some (-2, 4)
      ∧ after (exec (.dcWmv2 1) (reader [0x80])) (fun t => (t.dcdiff, t.brPos)) = some (0, 1)
      ∧ after (exec (.dcWmv2 1) (reader [0x40])) State.dcdiff = some 1 := by decide +kernel

/-- R176's example: a table that codes 119, then bits `00000101 1`. -/
theorem test_dc_wmv2_max :
    after (finish (dcWmv2Rule [⟨1, 1, 119⟩]) (reader [0x82, 0xC0])) (fun t => (t.dcdiff, t.brPos))
      = some (-5, 10) := by decide +kernel

/-- V42.11, V42.13, V42.14. -/
theorem test_ac_sym_vc1 :
    after (exec (.acSymVc1 0) (reader [0x20])) (fun t => (t.res0, t.res1, t.res2, t.last))
        = some (1, 1, 0, false)
      ∧ after (exec (.acSymVc1 0) (reader [0x14])) (fun t => (t.res0, t.res1, t.res2)) = some (0, 3, 0)
      ∧ after (exec (.acSymVc1 0) (reader [0x19, 0x80])) (fun t => (t.res0, t.res1, t.res2))
        = some (1, -1, 1) := by decide +kernel

/-- V42.15, V42.16. -/
theorem test_ac_sym_vc1_escape3 :
    after (exec (.acSymVc1 0) (reader [0x1E, 0x10, 0x2C])) (fun t => (t.res0, t.res1, t.res2, t.brPos))
        = some (2, -5, 1, 22)
      ∧ after (exec (.acSymVc1 0) (reader [0x10, 0x80])) State.ecode = some 3 := by decide +kernel

/-- V42.24, V42.25. -/
theorem test_ac_sym_wmv2 :
    after (exec (.acSymWmv2 0) (reader [0x1C])) (fun t => (t.res0, t.res1, t.res2)) = some (0, 3, 0)
      ∧ after (exec (.acSymWmv2 0) (reader [0x15, 0x80])) (fun t => (t.res0, t.res1, t.res2))
        = some (1, -1, 1) := by decide +kernel

/-- V42.26 (bits `0001 00 1 001 10 00011 1 0101`). -/
theorem test_ac_sym_wmv2_escape3 :
    after (exec (.acSymWmv2 0) (withCfg (reader [0x12, 0x61, 0xD4]) [(2, 10)]))
        (fun t => (t.res0, t.res1, t.res2, t.esc3LL, t.esc3RL)) = some (3, -5, 1, 4, 5) := by decide +kernel

/-- V42.18, V42.19. -/
theorem test_coefficient_buffer :
    after (exec .clrCoef (withCoef base [(7, 9)])) State.coef = some (Vector.replicate 64 0)
      ∧ after (exec (.coefWr 5 (-1)) base) (fun t => (coefAt t.coef 5, coefAt t.coef 4)) = some (-1, 0) := by
  decide +kernel

/-- V42.20; L1.3 in an inter and in an intra block, with the 22 bits it lists (their bytes are `1F F8 08`; the
bytes `1F F0 10` printed beside them are a slip). -/
theorem test_ac_block_vc1 :
    after (exec (.acBlockVc1 0 0 false) (reader [0x21, 0xE1, 0x02, 0xC0]))
        (fun t => (coefAt t.coef 1, coefAt t.coef 9, t.res0, t.res1)) = some (1, -5, 4, 2)
      ∧ after (exec (.acBlockVc1 0 0 false) (reader [0x1F, 0xF8, 0x08]))
        (fun t => (coefAt t.coef 63, t.res0, t.last, t.brPos)) = some (1, 63, true, 22)
      ∧ after (exec (.acBlockVc1 0 0 true) (reader [0x1F, 0xF8, 0x08]))
        (fun t => (t.ecode, t.errpos, t.coef)) = some (2, 22, Vector.replicate 64 0) := by decide +kernel

/-- V42.23. -/
theorem test_ac_block_wmv2 :
    after (exec (.acBlockWmv2 0 0 false) (reader [0x60]))
      (fun t => (coefAt t.coef 0, t.res0, t.res1)) = some (-1, 0, 1) := by decide +kernel

/-! ## Inverse quantizer (V43) -/

/-- V43.2, V43.3, V43.4. -/
theorem test_dq_vc1 :
    after (exec (.dqVc1 0 false) (withCoef (withCfg base [(2, 2), (3, 1)]) [(1, 1)]))
        (fun t => coefAt t.coef 1) = some 8
      ∧ after (exec (.dqVc1 0 false) (withCoef (withCfg base [(2, 31)]) [(1, 100), (2, -100)]))
        (fun t => (coefAt t.coef 1, coefAt t.coef 2, coefAt t.coef 3)) = some (2047, -2048, 0) := by
  decide +kernel

/-- V43.6. -/
theorem test_dq_vc1_override :
    after (exec (.dqVc1 0 false)
      { withCoef (withCfg base [(2, 2), (3, 1), (9, 1)]) [(1, 1)] with mquant := 7, mqValid := true })
      (fun t => coefAt t.coef 1) = some 21 := by decide +kernel

/-- V43.10, V43.11, V43.12. -/
theorem test_dq_wmv2 :
    after (exec (.dqWmv2 0 false) (withCoef (withCfg base [(2, 5)]) [(0, 1), (1, -2)]))
        (fun t => (coefAt t.coef 0, coefAt t.coef 1)) = some (15, -25)
      ∧ after (exec (.dqWmv2 0 false) (withCoef (withCfg base [(2, 4)]) [(1, 1)]))
        (fun t => coefAt t.coef 1) = some 11
      ∧ after (exec (.dqWmv2 0 false) (withCoef (withCfg base [(2, 1)]) [(1, -1)]))
        (fun t => coefAt t.coef 1) = some (-3) := by decide +kernel

/-- V43.9, and V43.6's `SET_MQUANT 7`. -/
theorem test_set_mquant :
    after (exec (.setMquant 0) base) State.ecode = some 6
      ∧ after (exec (.setMquant 7) base) (fun t => (t.mquant, t.mqValid)) = some (7, true) := by decide +kernel

/-! ## Transforms and block writes (V44) -/

/-- V44.5, V44.6. -/
theorem test_idct_8x8 :
    after (exec .idct8x8 (withCoef base [(1, 10)])) (fun t => (List.range 8).map fun k => coefAt t.coef (24 + k))
        = some [15, 14, 8, 4, -4, -8, -14, -15]
      ∧ after (exec .idct8x8 (withCoef base [(8, 10)]))
        (fun t => (List.range 8).map fun k => coefAt t.coef (8 * k + 3))
        = some [15, 14, 8, 4, -4, -8, -14, -15] := by decide +kernel

/-- V44.9, V44.2. -/
theorem test_idct_8x4 :
    after (exec .idct8x4A (withCoef base [(0, 64), (4, 40)]))
        (fun t => (List.range 8).map fun k => coefAt t.coef (24 + k))
        = some [166, 38, 38, 166, 166, 38, 38, 166]
      ∧ after (exec .idct8x4B (withCoef base [(0, 64)])) (fun t => (coefAt t.coef 31, coefAt t.coef 32))
        = some (102, 0) := by decide +kernel

/-- V44.3. -/
theorem test_idct_4x8 :
    after (exec .idct4x8A (withCoef base [(0, 64)])) (fun t => (coefAt t.coef 59, coefAt t.coef 60))
        = some (102, 0)
      ∧ after (exec .idct4x8B (withCoef base [(0, 64)])) (fun t => (coefAt t.coef 3, coefAt t.coef 4))
        = some (102, 0) := by decide +kernel

/-- V44.10, V44.4. -/
theorem test_idct_4x4 :
    after (exec .idct4x4A (withCoef base [(0, 64), (1, 20)]))
        (fun t => (List.range 8).map fun k => coefAt t.coef (24 + k)) = some [203, 171, 118, 86, 0, 0, 0, 0]
      ∧ after (exec .idct4x4B (withCoef base [(0, 64)])) (fun t => (coefAt t.coef 27, coefAt t.coef 28))
        = some (145, 0) := by decide +kernel

/-- R228: each shape applies its own parameter function, whatever that is, and stores 32 bits. -/
theorem test_widct :
    after (exec .widct8x8 base) State.coef
        = some ((Config.wmv2Idct .s8x8 (base.coef.map BitVec.toInt)).map (BitVec.ofInt 32))
      ∧ after (exec .widct8x4 base) State.coef
        = some ((Config.wmv2Idct .s8x4 (base.coef.map BitVec.toInt)).map (BitVec.ofInt 32))
      ∧ after (exec .widct4x8 base) State.coef
        = some ((Config.wmv2Idct .s4x8 (base.coef.map BitVec.toInt)).map (BitVec.ofInt 32)) :=
  ⟨rfl, rfl, rfl⟩

/-- The sample at `(x, y)` of plane `p` of a slot. -/
def sampleOf (slot : Option Frame) (p : PlaneId) (x y : Nat) : Option Nat :=
  slot.map fun f => (f.pix p x y).toNat

/-- V44.15, V44.17, V44.18. -/
theorem test_blk_put :
    after (exec (.blkPut 4) (withCoef opened [(0, 300), (1, -5)]))
        (fun t => (sampleOf t.cur .cb 0 0, sampleOf t.cur .cb 1 0, sampleOf t.cur .cr 0 0,
          t.recon.read (mbKey 0 0))) = some (some 255, some 0, some 128, true)
      ∧ after (exec (.blkPut 0) base) State.ecode = some 7
      ∧ after (exec (.blkPut 0) { opened with fstate := .suppressed .noref }) State.ecode = some 0 := by
  decide +kernel

/-- V44.16. -/
theorem test_blk_add :
    after (exec (.blkAdd 0) (withCoef (openIn (rowFrame [250, 7]) (rowFrame []) (rowFrame [])) [(0, 10)]))
      (fun t => (sampleOf t.cur .y 0 0, sampleOf t.cur .y 1 0, sampleOf t.cur .y 0 1))
      = some (some 255, some 7, some 250) := by decide +kernel

/-! ## Prediction (V45) -/

/-- V45.1, V45.2. -/
theorem test_set_mb :
    after (exec (.setMb 1 0) { sized 2 2 with mqValid := true }) (fun t => (t.mbx, t.mby, t.mqValid))
        = some (1, 0, false)
      ∧ after (exec (.setMb 2 0) (sized 2 2)) State.ecode = some 6 := by decide +kernel

/-- A predictor store with the given DC values of the luma blocks of macroblock (0, 0). -/
def dcs (l : List (Nat × Int)) : Grid Word :=
  l.foldl (fun g c => g.write (blockKey 0 0 c.1) (BitVec.ofInt 32 c.2)) (Grid.fresh 100)

/-- V45.3, V45.5. -/
theorem test_dcpred_vc1 :
    after (exec (.dcpredVc1 0) { sized 2 2 with dcdiff := 3 })
        (fun t => (coefAt t.coef 0, t.res0, t.pdir)) = some (103, 100, false)
      ∧ after (exec (.dcpredVc1 3) { sized 2 2 with dcb := dcs [(0, 90), (1, 120), (2, 95)] })
        (fun t => (coefAt t.coef 0, t.pdir)) = some (95, true) := by decide +kernel

/-- V45.6, V45.7. -/
theorem test_dcpred_wmv2 :
    after (exec (.dcpredWmv2 1) { sized 2 2 with dcb := dcs [(0, 103)] }) (fun t => (t.res0, t.pdir))
        = some (103, true)
      ∧ after (exec (.dcpredWmv2 0) (sized 2 2)) (fun t => (t.res0, t.pdir)) = some (100, true) := by
  decide +kernel

/-- V45.8. -/
theorem test_pred_store :
    after (exec (.predStore 0) (withCoef (sized 2 2) [(0, 103), (1, 1), (7, 7), (8, 10), (56, 70)]))
      (fun t => (t.dcb.read (blockKey 0 0 0), t.acrow.read (cacheKey 0 0 0 0), t.acrow.read (cacheKey 0 0 0 6),
        t.accol.read (cacheKey 0 0 0 0), t.accol.read (cacheKey 0 0 0 6)))
      = some (103, 1, 7, 10, 70) := by decide +kernel

/-- V45.9, V45.10. -/
theorem test_acpred :
    after (exec (.acpred 1) { withCoef (sized 2 2) [(1, 2)] with
          pdir := true, acrow := (Grid.fresh 0).write (cacheKey 0 0 0 0) 1 })
        (fun t => (coefAt t.coef 1, coefAt t.coef 2)) = some (3, 0)
      ∧ after (exec (.acpred 2) { withCoef (sized 2 2) [(8, 2)] with
          accol := (Grid.fresh 0).write (cacheKey 0 0 0 0) 5 })
        (fun t => (coefAt t.coef 8, coefAt t.coef 16)) = some (7, 0) := by decide +kernel

/-- V45.11, V45.12. -/
theorem test_cbppred :
    after (exec (.cbppred 1 true) { sized 2 2 with cbpb := (Grid.fresh false).write (gridKey 0 0) true })
        (fun t => (t.res0, t.cbpb.read (gridKey 1 0))) = some (0, false)
      ∧ after (exec (.cbppred 0 true) (sized 2 2)) (fun t => (t.res0, t.cbpb.read (gridKey 0 0)))
        = some (1, true) := by decide +kernel

/-- A vector store. -/
def vectors (l : List ((Nat × Nat) × MvCell)) : Grid MvCell :=
  l.foldl (fun g c => g.write (mbKey c.1.1 c.1.2) c.2) (Grid.fresh ⟨0, 0, true⟩)

/-- V45.13, V45.15. -/
theorem test_mvpred :
    after (exec .mvpred { sized 3 2 with mbx := 1, mby := 1, mvbuf := vectors [((0, 1), ⟨4, -2, false⟩),
          ((1, 0), ⟨1, 6, false⟩), ((2, 0), ⟨3, 3, false⟩)] })
        (fun t => (t.pmv, t.res0, t.res1)) = some (⟨3, 3⟩, 3, 3)
      ∧ after (exec .mvpred { sized 2 2 with mbx := 1, mby := 1, mvbuf := vectors [((0, 1), ⟨4, -2, false⟩),
          ((1, 0), ⟨1, 6, false⟩), ((0, 0), ⟨-2, 0, false⟩)] }) State.pmv
        = some ⟨1, 0⟩ := by decide +kernel

/-- V45.17, V45.18, V45.19. -/
theorem test_vectors :
    after (exec (.setMv false true (-1) 2) { base with pmv := ⟨3, 3⟩ }) State.mvf = some ⟨2, 5⟩
      ∧ after (exec (.setMv true false (-1024) 1023) base) State.mvbk = some ⟨-1024, 1023⟩
      ∧ after (exec (.mvstore false) { sized 2 2 with mbx := 1, mby := 1, mvf := ⟨2, 5⟩ })
        (fun t => t.mvbuf.read (mbKey 1 1)) = some ⟨2, 5, false⟩ := by decide +kernel

/-- L1.5, V46.14, V46.15. -/
theorem test_mv_bdirect :
    after (exec .mvBdirect { withCfg base [(17, 1), (18, 2)] with pmv := ⟨4, 2⟩ }) (fun t => (t.mvf, t.mvbk))
        = some (⟨2, 1⟩, ⟨-2, -1⟩)
      ∧ after (exec .mvBdirect { withCfg base [(17, 1), (18, 2)] with pmv := ⟨-3, 5⟩ })
        (fun t => (t.mvf, t.mvbk)) = some (⟨-1, 2⟩, ⟨2, -3⟩)
      ∧ after (exec .mvBdirect base) State.ecode = some 8 := by decide +kernel

/-! ## Motion compensation (V46) -/

/-- V46.1 and V46.3's reference. -/
def edge : Frame := rowFrame [0, 0, 0, 0, 0, 0, 0, 15, 101, 116, 116, 116, 116, 116, 116, 116]

/-- Row 0 of the luma buffer. -/
def lumaRow (m : McBuf) : List Nat := (List.range 16).map fun k => (m.sample .y 0 k).toNat

/-- V46.1, V46.3. -/
theorem test_mc_bilin :
    after (exec (.mcBilin false) { openIn edge edge edge with mvf := ⟨1, 0⟩ }) (fun t => lumaRow t.mcbuf0)
        = some [0, 0, 0, 0, 0, 0, 8, 58, 109, 116, 116, 116, 116, 116, 116, 116]
      ∧ after (exec (.mcBilin true) { openIn edge edge edge with mvbk := ⟨-1, 0⟩ })
        (fun t => ((t.mcbuf1.sample .y 0 0).toNat, (t.mcbuf1.sample .y 0 8).toNat)) = some (0, 58) := by
  decide +kernel

/-- V46.12's reference. -/
def ramp : Frame := rowFrame [0, 0, 0, 0, 100, 100, 100, 100, 100, 100, 100, 100, 100, 100, 100, 100]

/-- V46.12, V46.13. -/
theorem test_mc_mspel :
    after (exec (.mcMspel true) { openIn ramp ramp ramp with mvf := ⟨0, 0⟩ })
        (fun t => (t.mcbuf0.sample .y 0 3).toNat) = some 25
      ∧ after (exec (.mcMspel true) { openIn ramp ramp ramp with mvf := ⟨1, 0⟩ })
        (fun t => (t.mcbuf0.sample .y 0 3).toNat) = some 75 := by decide +kernel

/-- A buffer with one luma sample set. -/
def spot (v : Byte) : McBuf := McBuf.build fun p r c => if p = .y ∧ r = 0 ∧ c = 0 then v else 0

/-- V46.16, V46.17. -/
theorem test_mc_commit :
    after (exec (.mcCommit true) { opened with mcbuf0 := spot 10, mcbuf1 := spot 13 })
        (fun t => (sampleOf t.cur .y 0 0, t.recon.read (mbKey 0 0))) = some (some 12, true)
      ∧ after (exec (.mcCommit false) { opened with mcbuf0 := spot 10, mcbuf1 := spot 13 })
        (fun t => sampleOf t.cur .y 0 0) = some (some 10) := by decide +kernel

/-! ## Filters and frame control (V47, V48) -/

/-- V47.1, V47.2, V47.4, V47.7. -/
theorem test_filter_pairs :
    overlapPair 0 100 100 0 = ⟨75, 75⟩ ∧ overlapPair 0 0 116 0 = ⟨22, 65⟩
      ∧ loopPair 0 0 116 116 = ⟨15, 101⟩ ∧ loopPair 8 58 109 116 = ⟨57, 110⟩ := by decide

/-- V47.9: both stages at `x = 8`. -/
theorem test_frame_end_filters :
    after (exec .frameEnd { withCfg (openIn (rowFrame [0, 0, 0, 0, 0, 0, 0, 0, 116, 116, 116, 116, 116, 116, 116, 116])
          edge edge) [(2, 9), (5, 1), (6, 1)] with recon := (Grid.fresh false).write (mbKey 0 0) true })
      (fun t => (sampleOf t.out .y 7 3, sampleOf t.out .y 8 3)) = some (some 18, some 69) := by decide +kernel

/-- V48.10, V48.11. -/
theorem test_frame_end :
    after (exec .frameEnd opened) (fun t => (t.out, t.ref, t.bwd, t.fwd, t.fstate))
        = some (some (Frame.fresh 1 1), some (Frame.fresh 1 1), some (Frame.fresh 1 1), none, .idle)
      ∧ after (exec .frameEnd (sized 1 1)) State.ecode = some 7 := by decide +kernel

/-- V48.4, V48.5, V48.8, V48.12. -/
theorem test_frame_begin :
    after (exec (.frameBegin false) base) (fun t => (t.ecode, t.fstate)) = some (7, .idle)
      ∧ after (exec (.frameBegin false) (sized 1 1)) State.ecode = some 8
      ∧ after (exec (.frameBegin false) (withCfg (sized 1 1) [(2, 4)])) (fun t => (t.cur, t.fstate))
        = some (some (Frame.fresh 1 1), .opened)
      ∧ after (exec (.frameBegin false) (withCfg (sized 1 1) [(1, 1), (2, 4)])) (fun t => (t.noref, t.fstate))
        = some (true, .suppressed .noref) := by decide +kernel

/-- V48.16, V48.17 (samples 200). -/
theorem test_range_adjust :
    ((adjFrame (withCfg base [(7, 1), (8, 1)]) (rowFrame [200, 0, 255])).pix .y 0 0).toNat = 164
      ∧ ((adjFrame { withCfg base [(7, 1)] with prevRrf := true } (rowFrame [200])).pix .y 0 0).toNat = 255 := by
  decide +kernel

/-- V48.18; L1.6. -/
theorem test_resize :
    after (exec (.resize 0 1) base) State.ecode = some 6
      ∧ after (exec (.resize 2 1) opened) (fun t => (t.mbw, t.mbh, t.cur, t.fstate, t.dcb.read 7))
        = some (2, 1, none, .idle, 100) := by decide +kernel

/-- V48.1, V48.2, V48.3. -/
theorem test_configuration :
    after (exec (.wrcfg 2 4) base) (fun t => t.cfg[2]) = some 4
      ∧ after (exec (.rdcfg 21) (withCfg base [(21, 0xABCD)])) State.res0 = some 0xABCD
      ∧ exec .nop base = .next base := by
  refine ⟨by decide +kernel, by decide +kernel, rfl⟩

/-- V48.19, V48.21: the error record, and a command while it holds. -/
theorem test_errors :
    after (step { base with port := [.cmd 0x04000000] }) (fun t => (t.err, t.ecode, t.errcmd))
        = some (true, 6, 0x04000000)
      ∧ after (exec .brReadBit { readerAt 0 with err := true, ecode := 7 }) (fun t => (t.res0, t.brPos, t.ecode))
        = some (0, 0, 7) := by decide +kernel

/-- L3.1 step 2 as the first step after reset, through `withFetchWord`. -/
theorem test_step_runs_word :
    after (step ((readerAt 0).withFetchWord 32 0x12000003)) (fun t => (t.res0, t.brPos, t.cmd))
      = some (5, 3, 0x12000003) := by decide +kernel

/-! ## Witnesses: a state and operands that meet the hypotheses of each statement, clause by clause -/

/-- A command that answers a next state, found by evaluation. -/
theorem next_of {o : Host.Outcome State Fault Refusal} (h : after o (fun _ => ()) = some ()) :
    ∃ t, o = .next t := by
  cases o with
  | next t => exact ⟨t, rfl⟩
  | fault _ => cases h
  | refused _ => cases h

/-- An engine whose tables code the symbols at the edges of the ranges: table 0 codes 31, 32, 119, 120, 118
and 0, table 1 the runs 63 and 62. -/
def wide : ParamData :=
  { toy with
    vlc := [.scalar [⟨1, 1, 31⟩, ⟨1, 2, 32⟩, ⟨1, 3, 119⟩, ⟨1, 4, 120⟩, ⟨1, 5, 118⟩, ⟨0, 5, 0⟩],
      .ac [⟨1, 1, .rle 63 255 true⟩, ⟨1, 2, .rle 62 255 true⟩]] }

theorem wide_ok : wide.wf = true := by decide +kernel

/-- The reader of an engine with the wide tables. -/
def wideReader (bytes : List Byte) : State :=
  { reader bytes with params := ⟨wide, wide_ok⟩ }

/-- The entries of the toy AC table and of the toy SCALAR table. -/
def acs : List (VlcEntry AcSym) :=
  [⟨1, 1, .rle 0 1 false⟩, ⟨1, 2, .rle 0 1 true⟩, ⟨1, 3, .rle 1 1 false⟩, ⟨1, 4, .esc⟩, ⟨1, 5, .rle 0 2 true⟩]

/-- The entries of the toy SCALAR table. -/
def scalars : List (VlcEntry Nat) := [⟨1, 1, 0⟩, ⟨1, 2, 1⟩, ⟨1, 3, 2⟩, ⟨1, 4, 3⟩]

/-- The entries of the wide SCALAR table. -/
def wideScalars : List (VlcEntry Nat) :=
  [⟨1, 1, 31⟩, ⟨1, 2, 32⟩, ⟨1, 3, 119⟩, ⟨1, 4, 120⟩, ⟨1, 5, 118⟩, ⟨0, 5, 0⟩]

/-- The entries of the wide AC table. -/
def wideAcs : List (VlcEntry AcSym) := [⟨1, 1, .rle 63 255 true⟩, ⟨1, 2, .rle 62 255 true⟩]

/-- An error recorded while a frame was open. -/
def failed : State :=
  { opened with err := true, ecode := 7, errcmd := 0x05000000, fstate := .aborted }

theorem witness_EncodeOfDecode : decode 0x12000005 = .ok (.brReadBits 5) := by decide

/-- A command word that no command has. -/
theorem no_command (i : Instr) : encode i ≠ 0x04000000 := by
  have h : (encode i).extractLsb' 24 8 = i.opcode := BitVec.extractLsb'_append_eq_left
  intro e
  rw [e] at h
  cases i <;> exact absurd (congrArg BitVec.toNat h) (of_decide_eq_true rfl)

theorem witness_IllegalCommandRaises :
    ({ base with port := [.cmd 0x04000000] } : State).port = [.cmd 0x04000000] ∧ base.err = false
      ∧ legalIn base (.brReadBits 33) = false ∧ legalIn base (.setMb 0 0) = false
      ∧ ∀ i, encode i = 0x04000000 → legalIn base i = false :=
  ⟨rfl, rfl, by decide, by decide, fun i h => absurd h (no_command i)⟩

theorem witness_StepRunsDecodedCommand :
    (readerAt 0).port = [] ∧ ((readerAt 0).withFetchWord 32 0x12000003).port = [.cmd 0x12000003]
      ∧ decode 0x12000003 = .ok (.brReadBits 3) := by decide

/-- The last byte that exists and the first that does not; the largest length and one more. -/
theorem witness_HostPortWrites :
    base.params.raw.payloadMax = 4 ∧ 3 < 4 ∧ (4 : Word).toNat ≤ 4 ∧ 4 < (5 : Word).toNat
      ∧ base.port = [] ∧ ({ base with port := [.payload 3 0x80] } : State).port = [.payload 3 0x80]
      ∧ ({ base with port := [.payload 4 0x80] } : State).port = [.payload 4 0x80]
      ∧ ({ base with port := [.payloadLen 5] } : State).port = [.payloadLen 5]
      ∧ after (step { base with port := [.payload 3 0x80] }) (fun t => portPayload t 3) = some (some 0x80)
      ∧ after (step { base with port := [.payloadLen 5] }) (fun t => portPayload t 4) = some none := by
  decide +kernel

theorem witness_PayloadBits :
    (∃ t, step { readerAt 0 with port := [.payload 1 0x80] } = .next t)
      ∧ (∃ t, step { readerAt 0 with port := [.payloadLen 1] } = .next t)
      ∧ (readerAt 0).brLen.toNat ≤ 16 ∧ 15 / 8 = 1 ∧ 15 < (readerAt 0).brLen.toNat :=
  ⟨next_of (by decide +kernel), next_of (by decide +kernel), by decide⟩

theorem witness_EveryCommandCompletes :
    ({ base with port := [.payload 4 0] } : State).params.raw.payloadMax ≤ 4 := by decide

theorem witness_IgnoredUnderError :
    failed.err = true ∧ runsUnderError .brReadBit = false
      ∧ ({ failed with port := [.cmd 0x04000000] } : State).port = [.cmd 0x04000000]
      ∧ (∀ i, encode i = 0x04000000 → runsUnderError i = false) ∧ failed.fstate = .aborted :=
  ⟨rfl, rfl, rfl, fun i h => absurd h (no_command i), rfl⟩

theorem witness_ErrorsRecorded :
    base.err = false ∧ exec .frameEnd base = .next (raise .seq base) ∧ (raise .seq base).err = true :=
  ⟨rfl, rfl, rfl⟩

theorem witness_FirstErrorKept :
    failed.err = true ∧ exec .nop failed = .next failed ∧ (∃ t, exec (.resize 1 1) failed = .next t)
      ∧ ∃ t, exec (.frameBegin false) failed = .next t :=
  ⟨rfl, rfl, next_of (by decide +kernel), next_of (by decide +kernel)⟩

theorem witness_OnlyListedPartsChange :
    (∃ t, exec (.rdcfg 2) opened = .next t) ∧ Part.coef ∉ partsOf (.rdcfg 2) :=
  ⟨next_of (by decide +kernel), by decide⟩

/-- An open frame in which `BLK_PUT 0` is to run. -/
def running : State := { opened with port := [.cmd 0x42000000] }

theorem running_steps : ∃ t, step running = .next t := next_of (by decide +kernel)

theorem witness_StepKeepsErrorInv : ErrorInv running ∧ ∃ t, step running = .next t :=
  ⟨⟨by decide, by decide, by decide, by decide⟩, running_steps⟩

theorem witness_StepKeepsErrorInv_failed : ErrorInv { failed with port := [.cmd 0x05000000] } :=
  ⟨by decide, by decide, by decide, by decide⟩

/-- `running` with bytes in its payload, the last one that exists among them, and a reconstructed macroblock. -/
def stored : State := { running with payload := [(0, 1), (3, 0)], recon := (Grid.fresh false).write 0 true }

theorem witness_StepKeepsStoreInv : StoreInv stored ∧ ∃ t, step stored = .next t :=
  ⟨⟨by decide, by decide, by decide, by decide, by decide, by decide, by decide⟩, next_of (by decide +kernel)⟩

theorem witness_StepKeepsFramesInv : FramesInv running ∧ ∃ t, step running = .next t := by
  have h : slotOk running (some (Frame.fresh 1 1)) := fun f hf => by
    cases hf
    exact ⟨Frame.wf_fresh 1 1, rfl, rfl⟩
  have hn : slotOk running none := fun f hf => by cases hf
  exact ⟨⟨h, hn, hn, hn, hn, hn, h, h⟩, running_steps⟩

theorem witness_StepKeepsRangeInv : RangeInv running ∧ ∃ t, step running = .next t :=
  ⟨⟨by decide, by decide, by decide, by decide, by decide, by decide, by decide⟩, running_steps⟩

theorem witness_StepKeepsOpenInv : OpenInv running ∧ ∃ t, step running = .next t :=
  ⟨⟨by decide, by decide, by decide, by decide, by decide⟩, running_steps⟩

theorem witness_StatusAndFields :
    base.fstate = .idle ∧ opened.fstate = .opened ∧ failed.fstate = .aborted
      ∧ ({ base with fstate := .suppressed .ix8 } : State).fstate = .suppressed .ix8
      ∧ base.cfg[(23 : Fin 32)].extractLsb' 7 3 = 0
      ∧ (withCfg base [(23, 0x80)]).cfg[(23 : Fin 32)].extractLsb' 7 3 ≠ 0
      ∧ (withCfg base [(23, 0x380)]).cfg[(23 : Fin 32)].extractLsb' 7 3 = 7 := by decide +kernel

/-- `BR_NEED 3` and `BR_NEED 4` with 3 bits left; `BR_NEED 0` past the end. -/
theorem witness_ReaderControl :
    (readerAt 13).err = false ∧ (readerAt 13).brPos.toNat + (3 : BitVec 24).toNat ≤ (readerAt 13).brLen.toNat
      ∧ (readerAt 13).brLen.toNat < (readerAt 13).brPos.toNat + (4 : BitVec 24).toNat
      ∧ (readerAt 100).brLen.toNat < (readerAt 100).brPos.toNat + (1 : BitVec 24).toNat := by decide

theorem witness_ReadBits :
    (readerAt 3).err = false ∧ (32 : BitVec 6).toNat ≤ 32 ∧ 32 < (33 : BitVec 6).toNat := by decide

theorem witness_ReadSigned :
    (readerAt 3).err = false ∧ (32 : BitVec 6).toNat ≤ 32 ∧ 32 < (33 : BitVec 6).toNat := by decide

theorem witness_VlcRoundTrip :
    (reader [0x10]).err = false
      ∧ vlcTable (reader [0x10]).params 1 = some (.scalar scalars) ∧ CodeAt (reader [0x10]) scalars 0 ⟨1, 4, 3⟩
      ∧ vlcTable (reader [0x3F]).params 0 = some (.ac acs) ∧ CodeAt (reader [0x3F]) acs 0 ⟨1, 3, .rle 1 1 false⟩
      ∧ CodeAt (reader [0x10]) acs 0 ⟨1, 4, .esc⟩ := by
  unfold CodeAt; decide +kernel

/-- A payload of zeros codes nothing in either table; table 2 does not exist. -/
theorem witness_VlcNoMatch :
    (reader [0]).err = false ∧ NoCodeAt (reader [0]) scalars 0 ∧ NoCodeAt (reader [0]) acs 0
      ∧ vlcTable (reader [0]).params 2 = none := by
  unfold NoCodeAt; decide +kernel

/-- A run that the table codes, one that it does not, and the same for levels. -/
theorem witness_EscapeTables :
    base.err = false ∧ acTable base.params 1 = none ∧ acTable base.params 0 = some acs
      ∧ (∃ e ∈ acs, e.sym = .rle (0 : BitVec 6).toNat 2 true)
      ∧ (∀ e ∈ acs, e.sym ≠ .rle (5 : BitVec 6).toNat 1 true)
      ∧ (∃ e ∈ acs, e.sym = .rle 1 (1 : BitVec 8).toNat false) := by decide

/-- An empty reader, no code, and the sizes 31 and 32. -/
theorem witness_DcVc1 :
    base.err = false ∧ scalarTable base.params 1 = some scalars ∧ base.brLen ≤ base.brPos
      ∧ (reader [0]).brPos < (reader [0]).brLen ∧ NoCodeAt (reader [0]) scalars 0
      ∧ scalarTable (wideReader [0x80]).params 0 = some wideScalars
      ∧ CodeAt (wideReader [0x80]) wideScalars 0 ⟨1, 1, 31⟩ ∧ CodeAt (wideReader [0x40]) wideScalars 0 ⟨1, 2, 32⟩ := by
  unfold NoCodeAt CodeAt; decide +kernel

/-- An empty reader, no code, and the magnitudes 0, 118, 119 and 120. -/
theorem witness_DcWmv2 :
    base.err = false ∧ scalarTable base.params 1 = some scalars ∧ base.brLen ≤ base.brPos
      ∧ (reader [0]).brPos < (reader [0]).brLen ∧ NoCodeAt (reader [0]) scalars 0
      ∧ scalarTable (wideReader [0]).params 0 = some wideScalars
      ∧ CodeAt (wideReader [0]) wideScalars 0 ⟨0, 5, 0⟩ ∧ CodeAt (wideReader [0x08]) wideScalars 0 ⟨1, 5, 118⟩
      ∧ CodeAt (wideReader [0x20]) wideScalars 0 ⟨1, 3, 119⟩
      ∧ CodeAt (wideReader [0x10]) wideScalars 0 ⟨1, 4, 120⟩ := by
  unfold NoCodeAt CodeAt; decide +kernel

/-- A plain symbol; `ESC` with prefix 0, then no code, `ESC` and a symbol; with prefix 10; with prefix 11. -/
theorem witness_AcSymVc1 :
    base.err = false ∧ acTable base.params 0 = some acs ∧ base.brLen ≤ base.brPos
      ∧ (reader [0x20]).brPos < (reader [0x20]).brLen ∧ NoCodeAt (reader [0]) acs 0
      ∧ CodeAt (reader [0x20]) acs 0 ⟨1, 3, .rle 1 1 false⟩
      ∧ (CodeAt (reader [0x14]) acs 0 ⟨1, 4, .esc⟩ ∧ payloadBit (reader [0x14]) 4 = 0
        ∧ CodeAt (reader [0x14]) acs 5 ⟨1, 1, .rle 0 1 false⟩
        ∧ NoCodeAt (reader [0x10, 0]) acs 5 ∧ CodeAt (reader [0x10, 0x80]) acs 5 ⟨1, 4, .esc⟩)
      ∧ (payloadBit (reader [0x19, 0x80]) 4 = 1 ∧ payloadBit (reader [0x19, 0x80]) 5 = 0
        ∧ CodeAt (reader [0x19, 0x80]) acs 6 ⟨1, 2, .rle 0 1 true⟩)
      ∧ payloadBit (reader [0x1E, 0x10, 0x2C]) 4 = 1 ∧ payloadBit (reader [0x1E, 0x10, 0x2C]) 5 = 1 := by
  unfold NoCodeAt CodeAt; decide +kernel

/-- V42.26's bits: the lengths after the last bit are a zero count of 2 from 2 and a run width of 5. -/
theorem lengths_at : LengthsAt (withCfg (reader [0x12, 0x61, 0xD4]) [(2, 10)]) 7 4 5 5 :=
  ⟨3, rfl, by decide +kernel, .inr (.inr ⟨by decide +kernel, 2, 3,
    ⟨by decide +kernel, by decide, .inl ⟨by decide, by decide +kernel, rfl⟩⟩, rfl, rfl⟩)⟩

/-- A plain symbol; `ESC` with prefix 1, 01 and 00, the last with and without derived widths. -/
theorem witness_AcSymWmv2 :
    base.err = false ∧ acTable base.params 0 = some acs ∧ base.brLen ≤ base.brPos ∧ NoCodeAt (reader [0]) acs 0
      ∧ CodeAt (reader [0x20]) acs 0 ⟨1, 3, .rle 1 1 false⟩
      ∧ (CodeAt (reader [0x1C]) acs 0 ⟨1, 4, .esc⟩ ∧ payloadBit (reader [0x1C]) 4 = 1
        ∧ CodeAt (reader [0x1C]) acs 5 ⟨1, 1, .rle 0 1 false⟩)
      ∧ (payloadBit (reader [0x15, 0x80]) 4 = 0 ∧ payloadBit (reader [0x15, 0x80]) 5 = 1
        ∧ CodeAt (reader [0x15, 0x80]) acs 6 ⟨1, 2, .rle 0 1 true⟩)
      ∧ payloadBit (reader [0x12, 0x61, 0xD4]) 4 = 0 ∧ payloadBit (reader [0x12, 0x61, 0xD4]) 5 = 0
      ∧ (reader [0x12, 0x61, 0xD4]).esc3LL = 0
      ∧ ({ reader [0x10, 0x41, 0x80] with esc3LL := 4, esc3RL := 5 } : State).esc3LL ≠ 0 := by
  unfold NoCodeAt CodeAt; decide +kernel

/-- Escape 2 at its largest run, and the width 6 of an escape 3. -/
theorem witness_RunBound :
    acTable base.params 0 = some acs ∧ ({ base with esc3RL := 6 } : State).esc3RL.toNat ≤ 6
      ∧ Sys2Proof.Machine.acSymVc1 acs (reader [0x20]) = .ok ⟨1, 1, false⟩ { reader [0x20] with brPos := 4 }
      ∧ Sys2Proof.Machine.acSymWmv2 acs (reader [0x20]) = .ok ⟨1, 1, false⟩ { reader [0x20] with brPos := 4 } :=
  ⟨by decide, by decide, rfl, rfl⟩

/-- The scan of the toy instance. -/
def zigzag : List Nat := (scanTable base.params 0).getD []

/-- One symbol with `last` set ends a block at index 0; an empty reader stops one. -/
theorem witness_AcBlock :
    (reader [0x60]).err = false ∧ acTable base.params 0 = some acs ∧ scanTable base.params 0 = some zigzag
      ∧ (∃ u idx n, BlockRun (Sys2Proof.Machine.acSymVc1 acs) zigzag (reader [0x60]) (-1) 0 u idx n)
      ∧ BlockStop (Sys2Proof.Machine.acSymWmv2 acs) zigzag base (-1) .underrun base :=
  ⟨rfl, by decide, by decide +kernel,
    ⟨_, _, _, BlockRun.last (r := ⟨0, -1, true⟩) (u := { reader [0x60] with brPos := 3 }) rfl (by decide) rfl⟩,
    BlockStop.unreadable rfl⟩

/-- The last index of a scan and the one past it. -/
theorem witness_AcBlockOneSymbol :
    (wideReader [0x80]).err = false
      ∧ acTable (wideReader [0x80]).params 1 = some wideAcs
      ∧ scanTable (wideReader [0x80]).params 0 = some zigzag ∧ zigzag.length = 64
      ∧ (wideReader [0x80]).brPos < (wideReader [0x80]).brLen
      ∧ CodeAt (wideReader [0x80]) wideAcs 0 ⟨1, 1, .rle 63 255 true⟩
      ∧ CodeAt (wideReader [0x40]) wideAcs 0 ⟨1, 2, .rle 62 255 true⟩ := by
  unfold CodeAt; decide +kernel

theorem witness_CoefficientBuffer : (withCoef base [(7, 9)]).err = false := rfl

/-- The last column and row of a picture. -/
theorem witness_RegisterCommands :
    (sized 2 2).err = false ∧ (1 : BitVec 12) < (sized 2 2).mbw ∧ (1 : BitVec 12) < (sized 2 2).mbh
      ∧ (1 : BitVec 5) ≠ 0 ∧ (sized 2 2).mbw ≠ 0 ∧ (31 : Fin 32).val = (31 : BitVec 5).toNat := by decide

/-- With and without the override, block 5. -/
theorem witness_DqVc1 :
    base.err = false ∧ (5 : BitVec 3).toNat ≤ 5
      ∧ (cfgDquant { withCfg base [(9, 1)] with mqValid := true } ≠ 0
        ∧ ({ withCfg base [(9, 1)] with mqValid := true } : State).mqValid = true)
      ∧ cfgDquant base = 0 := by decide

/-- A positive, a negative and a zero level; `q` = 0 and `q` = 31. -/
theorem witness_DqWmv2 :
    base.err = false ∧ (5 : BitVec 3).toNat ≤ 5 ∧ cfgPquant base = 0 ∧ cfgPquant (withCfg base [(2, 31)]) = 31
      ∧ 0 < ((withCoef base [(1, 1), (2, -1)]).coef[1]).toInt
      ∧ ((withCoef base [(1, 1), (2, -1)]).coef[2]).toInt < 0
      ∧ ((withCoef base [(1, 1), (2, -1)]).coef[3]).toInt = 0 := by decide +kernel

theorem witness_Transforms :
    base.err = false ∧ (Instr.idct4x4B, 4, 4) ∈ [(Instr.idct8x8, 8, 8), (.idct8x4A, 8, 4), (.idct8x4B, 8, 4),
      (.idct4x8A, 4, 8), (.idct4x8B, 4, 8), (.idct4x4A, 4, 4), (.idct4x4B, 4, 4)] := by decide

/-- The largest DC. -/
theorem witness_DcOnlyBlocks :
    (withCoef base [(0, 2 ^ 26)]).err = false ∧ (withCoef base [(0, 2 ^ 26)]).coef[0] = BitVec.ofInt 32 (2 ^ 26)
      ∧ ∀ k : Fin 64, k.val ≠ 0 → (withCoef base [(0, 2 ^ 26)]).coef[k] = 0 := by decide +kernel

theorem opened_with : OpenWith opened (Frame.fresh 1 1) := ⟨rfl, rfl, rfl, by decide, by decide⟩

/-- The first and the last block. -/
theorem witness_BlockWrites :
    OpenWith opened (Frame.fresh 1 1) ∧ (0 : BitVec 3).toNat ≤ 5 ∧ (5 : BitVec 3).toNat ≤ 5 :=
  ⟨opened_with, by decide, by decide⟩

/-- A suppressed frame, no frame, an open frame without `CUR`, without `WREF0`, without `WREF1`, no size. -/
theorem witness_Preconditions :
    opened.err = false ∧ base.err = false ∧ (Instr.blkPut 5).wf = true ∧ writesPixels (.blkPut 5) = true
      ∧ ({ opened with fstate := .suppressed .skipb } : State).fstate = .suppressed .skipb
      ∧ base.fstate = .idle ∧ ({ opened with cur := none } : State).cur = none
      ∧ ({ opened with wref0 := none } : State).wref0 = none ∧ opened.fstate = .opened
      ∧ ({ opened with wref1 := none } : State).wref1 = none
      ∧ needsPicture (.acpred 5) = true ∧ (Instr.acpred 5).wf = true ∧ base.mbw = 0 := by decide

/-- The first and the last column and row; the largest indices of a cache key and of a grid key. -/
theorem witness_Neighbours :
    (sized 2 2).mbx.toNat = 0 ∧ ({ sized 2 2 with mbx := 1, mby := 1 } : State).mbx.toNat = 1
      ∧ cacheKey (4094 : BitVec 12).toNat (4094 : BitVec 12).toNat 5 6 = cacheKey 4094 4094 5 6
      ∧ 8189 < 2 * 4095 ∧ gridKey 8189 0 = gridKey 8189 0 := by decide

theorem witness_DcPrediction :
    (sized 2 2).err = false ∧ (5 : BitVec 3).toNat ≤ 5 ∧ (sized 2 2).mbw ≠ 0
      ∧ 1 ≤ stepAt (sized 2 2).params.raw.vc1DcStep 31 := by decide

theorem witness_PredStore :
    base.mbw = 0 ∧ (sized 2 2).err = false ∧ (5 : BitVec 3).toNat ≤ 5 ∧ (sized 2 2).mbw ≠ 0 := by decide

theorem witness_AcPrediction :
    base.mbw = 0 ∧ (sized 2 2).err = false ∧ (5 : BitVec 3).toNat ≤ 5 ∧ (sized 2 2).mbw ≠ 0 ∧ (sized 2 2).pdir = false
      ∧ ({ sized 2 2 with pdir := true } : State).pdir = true := by decide

theorem witness_CbpPrediction : base.mbw = 0 ∧ (sized 2 2).err = false ∧ (sized 2 2).mbw ≠ 0 := by decide

/-- The first and the last column. -/
theorem witness_MvPrediction :
    base.mbw = 0 ∧ (sized 2 2).err = false ∧ (sized 2 2).mbx.toNat < (sized 2 2).mbw.toNat
      ∧ ({ sized 2 2 with mbx := 1, mby := 1 } : State).mbx.toNat < (sized 2 2).mbw.toNat := by decide

theorem witness_McBilinear :
    base.fstate = .idle ∧ ({ opened with wref1 := none } : State).wref1 = none
      ∧ opened.err = false ∧ opened.fstate = .opened ∧ opened.cur.isSome = true
      ∧ opened.wref0 = some (Frame.fresh 1 1) ∧ opened.wref1 = some (Frame.fresh 1 1)
      ∧ 0 < (Frame.fresh 1 1).mbw.toNat ∧ 0 < (Frame.fresh 1 1).mbh.toNat :=
  ⟨rfl, rfl, rfl, rfl, rfl, rfl, rfl, by decide, by decide⟩

/-- A flat reference: every sample of a default frame's luma plane is 16. -/
theorem witness_McMspel :
    opened.err = false ∧ opened.fstate = .opened ∧ opened.cur.isSome = true
      ∧ opened.wref0 = some (Frame.fresh 1 1) ∧ ∀ u v, refPix (Frame.fresh 1 1) .y u v = (16 : Byte).toNat := by
  refine ⟨rfl, rfl, rfl, rfl, fun u v => ?_⟩
  have hw : ((Frame.fresh 1 1).width .y : Int) - 1 = 15 := rfl
  have hh : ((Frame.fresh 1 1).height .y : Int) - 1 = 15 := rfl
  unfold refPix
  rw [hw, hh, Frame.pix_fresh (w := 1) (h := 1)]
  · rfl
  · show (clamp u 0 15).toNat < 16
    unfold clamp
    omega
  · show (clamp v 0 15).toNat < 16
    unfold clamp
    omega

theorem witness_McCommit : base.err = false ∧ base.fstate = .idle ∧ OpenWith opened (Frame.fresh 1 1) :=
  ⟨rfl, rfl, opened_with⟩

theorem witness_BDirect :
    base.err = false ∧ cfgBfracDen (withCfg base [(17, 1), (18, 2)]) ≠ 0 ∧ cfgBfracDen base = 0 := by decide

theorem witness_FilterOrder : (Frame.fresh 2 2).wf := Frame.wf_fresh 2 2

theorem witness_BoundaryFilters : (255 : Byte) = 255 ∧ (0 : Byte).toNat = 0 := by decide

/-- An untouched macroblock beside a touched one. -/
theorem witness_UntouchedMacroblock :
    let s : State := { sized 2 1 with
      fstate := .opened, cur := some (Frame.fresh 2 1), recon := (Grid.fresh false).write (mbKey 0 0) true }
    s.fstate = .opened ∧ s.cur = some (Frame.fresh 2 1) ∧ (Frame.fresh 2 1).wf
      ∧ 16 < (Frame.fresh 2 1).width .y ∧ 0 < (Frame.fresh 2 1).height .y
      ∧ s.recon.read (mbKey (16 / PlaneId.y.unit) (0 / PlaneId.y.unit)) = false :=
  ⟨rfl, rfl, Frame.wf_fresh 2 1, by decide, by decide, by decide⟩

theorem witness_Resize :
    (4095 : BitVec 12) ≠ 0 ∧ base.err = false ∧ (0 : BitVec 12) = 0 ∧ cfgCodec base = .vc1
      ∧ cfgCodec (withCfg base [(0, 1)]) = .wmv2 := by decide +kernel

/-- The last sample of a plane; each direction of the range adjustment; an output present. -/
theorem witness_FrameSamples :
    15 < PlaneId.y.unit * (sized 1 1).mbw.toNat ∧ 7 < PlaneId.cr.unit * (sized 1 1).mbh.toNat
      ∧ 15 < (Frame.fresh 1 1).width .y ∧ 15 < (Frame.fresh 1 1).height .y
      ∧ cfgRangered base = false ∧ cfgRangered (withCfg base [(7, 1), (8, 1)]) = true
      ∧ cfgRangeredfrm (withCfg base [(7, 1), (8, 1)]) = true ∧ (withCfg base [(7, 1), (8, 1)]).prevRrf = false
      ∧ cfgRangeredfrm (withCfg base [(7, 1)]) = false
      ∧ ({ base with out := some (Frame.fresh 1 1) } : State).out = some (Frame.fresh 1 1)
      ∧ (Frame.fresh 1 1).wf := by
  refine ⟨by decide, by decide, by decide, by decide, by decide, by decide, by decide, by decide, by decide, rfl,
    Frame.wf_fresh 1 1⟩

/-- The states of each row of R341: a picture size, no frame open, and the configuration of the row. -/
theorem witness_FrameBeginOpens :
    (sized 1 1).fstate = .idle ∧ failed.fstate = .aborted ∧ (sized 1 1).mbw ≠ 0
      ∧ cfgCodec (sized 1 1) = .vc1 ∧ cfgPquant (withCfg (sized 1 1) [(2, 1)]) ≠ 0
      ∧ cfgFrameType (sized 1 1) = 0 ∧ cfgFrameType (withCfg (sized 1 1) [(1, 1)]) = 1
      ∧ cfgFrameType (withCfg (sized 1 1) [(1, 2), (18, 2)]) = 2
      ∧ cfgBfracDen (withCfg (sized 1 1) [(1, 2), (18, 2)]) ≠ 0
      ∧ cfgFrameType (withCfg (sized 1 1) [(1, 3)]) = 3 ∧ cfgFrameType (withCfg (sized 1 1) [(1, 4)]) = 4
      ∧ (sized 1 1).ref = none ∧ (sized 1 1).fwd = none ∧ (sized 1 1).w2ref = none
      ∧ ({ sized 1 1 with ref := some (Frame.fresh 1 1) } : State).ref = some (Frame.fresh 1 1)
      ∧ cfgCodec (withCfg (sized 1 1) [(0, 1)]) = .wmv2 ∧ cfgFrameType (withCfg (sized 1 1) [(0, 1)]) ≤ 1
      ∧ cfgW2Skipped (withCfg (sized 1 1) [(0, 1)]) = false
      ∧ cfgW2Skipped (withCfg (sized 1 1) [(0, 1), (20, 1)]) = true := by decide +kernel

/-- The states of each rejection: an open frame, no size, illegal types, a zero `PQUANT`, a zero `BFRAC_DEN`. -/
theorem witness_FrameBeginRejects :
    opened.err = false ∧ opened.fstate = .opened ∧ base.mbw = 0 ∧ base.fstate = .idle
      ∧ ({ opened with fstate := .suppressed .noref } : State).fstate = .suppressed .noref
      ∧ 4 < cfgFrameType (withCfg (sized 1 1) [(1, 5)]) ∧ cfgCodec (withCfg (sized 1 1) [(1, 5)]) = .vc1
      ∧ 1 < cfgFrameType (withCfg (sized 1 1) [(0, 1), (1, 2)])
      ∧ cfgCodec (withCfg (sized 1 1) [(0, 1), (1, 2)]) = .wmv2
      ∧ cfgFrameType (withCfg (sized 1 1) [(1, 3)]) < 4 ∧ cfgPquant (withCfg (sized 1 1) [(1, 3)]) = 0
      ∧ cfgW2Skipped (withCfg (sized 1 1) [(0, 1), (1, 1)]) = false
      ∧ cfgFrameType (withCfg (sized 1 1) [(1, 2), (2, 4)]) = 2
      ∧ cfgBfracDen (withCfg (sized 1 1) [(1, 2), (2, 4)]) = 0 := by decide +kernel

/-- Each frame state, each codec and type, and each stage on (`PQUANT` = 9) and off (`PQUANT` = 8). -/
theorem witness_FrameEnd :
    base.err = false ∧ base.fstate = .idle ∧ failed.fstate = .aborted ∧ opened.fstate = .opened
      ∧ opened.cur = some (Frame.fresh 1 1) ∧ opened.fc = .vc1 ∧ opened.ft = .i
      ∧ (cfgOverlap (withCfg opened [(2, 9), (5, 1), (6, 1)]) = true
        ∧ 9 ≤ cfgPquant (withCfg opened [(2, 9), (5, 1), (6, 1)])
        ∧ cfgLoopfilter (withCfg opened [(2, 9), (5, 1), (6, 1)]) = true)
      ∧ ¬ 9 ≤ cfgPquant (withCfg opened [(2, 8), (5, 1)])
      ∧ ({ opened with fc := .wmv2 } : State).fc = .wmv2 ∧ ({ opened with ft := .b } : State).ft = .b
      ∧ ({ opened with ft := .skipped } : State).ft = .skipped
      ∧ ({ opened with fstate := .suppressed .noref } : State).fstate = .suppressed .noref := by decide +kernel

theorem witness_FrameStateTransitions :
    after (exec .frameEnd opened) State.fstate = some .idle ∧ opened.fstate = .opened
      ∧ after (exec (.frameBegin false) (withCfg (sized 1 1) [(2, 4)])) State.fstate = some .opened
      ∧ after (exec (.frameBegin false) opened) State.fstate = some .aborted
      ∧ after (exec (.resize 1 1) opened) State.fstate = some .idle := by decide +kernel

end Sys2Proof.Tests
end

section
/-! PROOFS. The decoder takes every encoded command back, and a step runs the command it decodes (O5). -/

namespace Sys2Proof

theorem opcodeOf_encode (i : Instr) : opcodeOf (encode i) = i.opcode := BitVec.extractLsb'_append_eq_left

theorem argsOf_encode (i : Instr) : argsOf (encode i) = i.args := BitVec.extractLsb'_append_eq_right

theorem decode_encode_eq_decodeArgs (i : Instr) : decode (encode i) = decodeArgs i.opcode.toNat i.args := by
  rw [decode, opcodeOf_encode, argsOf_encode]

@[simp] theorem bit_getLsbD_zero (b : Bool) : (bit b).getLsbD 0 = b := by cases b <;> rfl

/-- Each field is read back from the place in the concatenation where `Instr.args` puts it, and the
reserved bits of its row are the zeros between the fields (R102, R103). -/
theorem decode_encode (i : Instr) : decode (encode i) = .ok i := by
  rw [decode_encode_eq_decodeArgs]
  cases i <;>
    simp [-Nat.reduceAdd, -BitVec.getLsbD_eq_getElem, Instr.opcode, Instr.args, decodeArgs, decodeIdct,
      decodeWidct, reserved0, field, flag, BitVec.extractLsb'_append_eq_of_le,
      BitVec.extractLsb'_append_eq_of_add_le, BitVec.getLsbD_append]

end Sys2Proof

namespace Sys2Proof.Machine

/-- A command word that decodes becomes the `cmd` of R13 and its command is run. -/
theorem fetchNext_cmd {s : State} {w : Word} {rest : List PortWrite} {i : Instr}
    (hport : s.port = .cmd w :: rest) (hdec : decode w = .ok i) :
    fetchNext s = .run i { s with port := rest, cmd := w } := by
  simp [fetchNext, hport, hdec]

theorem step_cmd {s : State} {w : Word} {rest : List PortWrite} {i : Instr}
    (hport : s.port = .cmd w :: rest) (hdec : decode w = .ok i) :
    step s = exec i { s with port := rest, cmd := w } := by
  simp [step, fetchNext_cmd hport hdec]

theorem withFetchWord_port (s : State) (w : Word) :
    (s.withFetchWord 32 w.toNat).port = .cmd w :: s.port := by
  simp [State.withFetchWord, withCommandWord, Nat.mod_eq_of_lt w.isLt]

/-- Settles O5: the second part is the first one at the word that `encode` gives. -/
theorem stepRunsDecodedCommand : Obligations.StepRunsDecodedCommand :=
  ⟨fun _ _ _ _ => step_cmd, fun s i => step_cmd (withFetchWord_port s (encode i)) (decode_encode i)⟩

end Sys2Proof.Machine
end

section
/-! PROOFS. The bit reader's control commands (O21). -/

namespace Sys2Proof.Machine

/-- A command whose rule is one change of the state. -/
theorem command_update {s : State} (h : s.err = false) (f : State → State) :
    command (some (update f)) s = .next (f s) := by
  rw [command_some h, finish_ok (update_run f s)]

/-- `raise` while no error is recorded (R380). -/
theorem raise_eq_withError {s : State} (h : s.err = false) (e : ErrCode) : raise e s = withError e.code s := by
  simp [raise, withError, h]

theorem skipBits_eq_advanced (n : Nat) (s : State) : skipBits n s = { s with brPos := advanced s n } := rfl

theorem n32_setWidth {w : Nat} (x : BitVec w) : n32 x.toNat = x.setWidth 32 := by
  simp [n32, BitVec.ofNat_toNat]

/-- `8 * PAYLOAD_LEN` stored in 32 bits (R39, log entry 12). -/
theorem n32_eight_mul (x : Word) : n32 (8 * x.toNat) = 8#32 * x := by
  simp [n32, BitVec.ofNat_mul]

theorem n32_bitsLeft (s : State) :
    n32 (bitsLeft s) = if s.brPos < s.brLen then s.brLen - s.brPos else 0 := by
  unfold n32 bitsLeft
  split <;> bv_omega

theorem n32_brEmpty (s : State) : n32 (bit01 (brEmpty s)) = if s.brLen ≤ s.brPos then 1 else 0 := by
  simp only [brEmpty, bit01, decide_eq_true_eq, BitVec.le_def]
  split <;> rfl

/-- Enough bits are left, or none is asked for (R141). -/
theorem brNeedRule_ok {s : State} {n : Nat} (h : s.brPos.toNat + n ≤ s.brLen.toNat ∨ n = 0) :
    brNeedRule n s = .ok () s := by
  rw [brNeedRule, if_neg]
  unfold bitsLeft
  omega

theorem brNeedRule_error {s : State} {n : Nat} (h : s.brLen.toNat < s.brPos.toNat + n) (hn : n ≠ 0) :
    brNeedRule n s = .error .hdrShort s := by
  rw [brNeedRule, if_pos]
  unfold bitsLeft
  omega

theorem exec_brInit {s : State} (h : s.err = false) (n : BitVec 24) :
    exec (.brInit n) s = .next { s with brLen := 8#32 * s.payloadLen, brPos := n.setWidth 32 } := by
  simp only [exec, execBrInit, command_update h, n32_eight_mul, n32_setWidth]

theorem exec_brSkip {s : State} (h : s.err = false) (n : BitVec 24) :
    exec (.brSkip n) s = .next { s with brPos := advanced s n.toNat } := by
  simp only [exec, execBrSkip, command_update h, skipBits_eq_advanced]

theorem exec_brBitsLeft {s : State} (h : s.err = false) :
    exec .brBitsLeft s = .next { s with res0 := if s.brPos < s.brLen then s.brLen - s.brPos else 0 } := by
  simp only [exec, execBrBitsLeft, command_update h, n32_bitsLeft]

theorem exec_brIsEmpty {s : State} (h : s.err = false) :
    exec .brIsEmpty s = .next { s with res0 := if s.brLen ≤ s.brPos then 1 else 0 } := by
  simp only [exec, execBrIsEmpty, command_update h, n32_brEmpty]

theorem exec_brNeed_ok {s : State} (h : s.err = false) {n : BitVec 24}
    (hn : s.brPos.toNat + n.toNat ≤ s.brLen.toNat ∨ n = 0) : exec (.brNeed n) s = .next s := by
  have hrule : brNeedRule n.toNat s = .ok () s := brNeedRule_ok (hn.imp_right fun h0 => by simp [h0])
  simp only [exec, execBrNeed, command_some h, finish_ok hrule]

theorem exec_brNeed_error {s : State} (h : s.err = false) {n : BitVec 24}
    (hlt : s.brLen.toNat < s.brPos.toNat + n.toNat) (hn : n ≠ 0) :
    exec (.brNeed n) s = .next (withError 5 s) := by
  have hrule : brNeedRule n.toNat s = .error .hdrShort s :=
    brNeedRule_error hlt fun h0 => hn (BitVec.eq_of_toNat_eq h0)
  simp only [exec, execBrNeed, command_some h, finish_error hrule, raise_eq_withError h, ErrCode.code]

/-- Settles O21, one rule per command. -/
theorem readerControl : Obligations.ReaderControl := fun _ n h =>
  ⟨exec_brInit h n, exec_brSkip h n, exec_brBitsLeft h, exec_brIsEmpty h, exec_brNeed_ok h, exec_brNeed_error h⟩

end Sys2Proof.Machine
end

section
/-! PROOFS. The coefficient buffer: reading what was built or written, and the commands that clear it, write
one coefficient, or apply a WMV2 transform (O34). -/

namespace Sys2Proof.Machine

@[simp] theorem i32_toInt {w : Nat} (x : BitVec w) : i32 x.toInt = x.signExtend 32 := rfl

/-- A value in range keeps its value when it is stored in 32 bits (R11). -/
theorem toInt_i32 {v : Int} (hlo : -2 ^ 31 ≤ v) (hhi : v < 2 ^ 31) : (i32 v).toInt = v :=
  BitVec.toInt_ofInt_eq_self (by decide) hlo hhi

@[simp] theorem buildCoef_getElem (f : Nat → Int) (k : Nat) (hk : k < 64) : (buildCoef f)[k] = i32 (f k) := by
  simp [buildCoef]

theorem setCoef_getElem (u : Vector Word 64) (i : Nat) (v : Int) (k : Nat) (hk : k < 64) :
    (setCoef u i v)[k] = if k = i then i32 v else u[k] := by
  simp [setCoef, Vector.getElem_setIfInBounds, eq_comm]

theorem coefAt_of_lt (u : Vector Word 64) {k : Nat} (hk : k < 64) : coefAt u k = u[k].toInt := by
  simp [coefAt, hk]

theorem coefAt_of_le (u : Vector Word 64) {k : Nat} (hk : 64 ≤ k) : coefAt u k = 0 := by
  simp [coefAt, Vector.getElem?_eq_none hk]

@[simp] theorem i32_coefAt (u : Vector Word 64) (k : Nat) (hk : k < 64) : i32 (coefAt u k) = u[k] := by
  simp [coefAt_of_lt u hk]

theorem exec_clrCoef {s : State} (h : s.err = false) :
    exec .clrCoef s = .next { s with coef := buildCoef fun _ => 0 } := command_update h _

theorem exec_coefWr {s : State} (h : s.err = false) (i : BitVec 6) (v : BitVec 16) :
    exec (.coefWr i v) s = .next { s with coef := setCoef s.coef i.toNat v.toInt } := command_update h _

/-- A transform command replaces `COEF` and nothing else. -/
theorem transform_run {s : State} (h : s.err = false) (f : Vector Word 64 → Vector Word 64) :
    transform f s = .next { s with coef := f s.coef } := command_update h _

theorem wmv2Transform_getElem (shape : WmvShape) (u : Vector Word 64) (k : Nat) (hk : k < 64) :
    (wmv2Transform shape u)[k] = BitVec.ofInt 32 (Config.wmv2Idct shape (u.map BitVec.toInt))[k] := by
  simp [wmv2Transform, i32]

/-- Settles O34. -/
theorem coefficientBuffer : Obligations.CoefficientBuffer := by
  intro s h
  refine ⟨⟨_, exec_clrCoef h, fun k => by simp [i32]⟩,
    fun i v => ⟨_, exec_coefWr h i v, fun k => by simp [setCoef_getElem]⟩, fun i shape hi => ?_⟩
  have hrun : exec i s = transform (wmv2Transform shape) s := by
    rcases hi with ⟨rfl, rfl⟩ | ⟨rfl, rfl⟩ | ⟨rfl, rfl⟩ <;> rfl
  exact ⟨_, hrun.trans (transform_run h _), fun k => wmv2Transform_getElem shape s.coef k k.isLt⟩

end Sys2Proof.Machine
end

section
/-! PROOFS. The transform of a region at the coefficients of `COEF`, and a block with only a DC (O39). -/

namespace Sys2Proof.Machine

theorem sumTo_eq_sum (n : Nat) (f : Nat → Int) : sumTo n f = ∑ k ∈ Finset.range n, f k := by
  induction n with
  | zero => rfl
  | succ n ih => rw [sumTo, ih, Finset.sum_range_succ]

theorem sumTo_eq_zero {n : Nat} {f : Nat → Int} (h : ∀ k, k < n → f k = 0) : sumTo n f = 0 := by
  rw [sumTo_eq_sum]
  exact Finset.sum_eq_zero fun k hk => h k (Finset.mem_range.mp hk)

/-- A sum with no term but the first. -/
theorem sumTo_eq_first {n : Nat} {f : Nat → Int} (hn : 0 < n) (h : ∀ k, k ≠ 0 → f k = 0) : sumTo n f = f 0 := by
  rw [sumTo_eq_sum]
  exact Finset.sum_eq_single_of_mem 0 (Finset.mem_range.mpr hn) fun k _ => h k

/-- The row pass without the shift and the rounding that R9 sets to nothing. -/
theorem rowPass_eq (u : Vector Word 64) (r0 c0 wd r n : Nat) :
    rowPass u r0 c0 wd r n
      = (i32 (sumTo wd fun k => tap wd k n * coefAt u (8 * (r0 + r) + c0 + k))).toInt := by
  simp [rowPass, idctRowRound, idctRowShift, asr]

/-- The column pass without the correction that R9 switches off. -/
theorem colPass_eq (u : Vector Word 64) (r0 c0 wd ht m n : Nat) :
    colPass u r0 c0 wd ht m n
      = (sumTo ht (fun k => tap ht k m * rowPass u r0 c0 wd k n) + 64) / 2 ^ 7 := by
  simp [colPass, idctColLowerPlus1, asr]

theorem xform_getElem (u : Vector Word 64) (r0 c0 wd ht k : Nat) (hk : k < 64) :
    (xform r0 c0 wd ht u)[k]
      = if r0 ≤ k / 8 ∧ k / 8 < r0 + ht ∧ c0 ≤ k % 8 ∧ k % 8 < c0 + wd
        then i32 (colPass u r0 c0 wd ht (k / 8 - r0) (k % 8 - c0)) else u[k] := by
  rw [xform, buildCoef_getElem]
  split
  · rfl
  · exact i32_coefAt u k hk

/-! ## A region of zeros -/

/-- Every coefficient of the region at `(r0, c0)` is 0. -/
def ZeroRegion (u : Vector Word 64) (r0 c0 wd ht : Nat) : Prop :=
  ∀ r j, r < ht → j < wd → coefAt u (8 * (r0 + r) + c0 + j) = 0

theorem rowPass_of_zeroRegion {u : Vector Word 64} {r0 c0 wd ht r : Nat} (h : ZeroRegion u r0 c0 wd ht)
    (hr : r < ht) (n : Nat) : rowPass u r0 c0 wd r n = 0 := by
  rw [rowPass_eq, sumTo_eq_zero fun j hj => by rw [h r j hr hj, mul_zero]]
  rfl

theorem colPass_of_zeroRegion {u : Vector Word 64} {r0 c0 wd ht : Nat} (h : ZeroRegion u r0 c0 wd ht)
    (m n : Nat) : colPass u r0 c0 wd ht m n = 0 := by
  rw [colPass_eq, sumTo_eq_zero fun k hk => by rw [rowPass_of_zeroRegion h hk, mul_zero]]
  rfl

/-- A region of zeros stays, its rounding constant being below the shift. -/
theorem xform_of_zeroRegion {u : Vector Word 64} {r0 c0 wd ht : Nat} (h : ZeroRegion u r0 c0 wd ht) :
    xform r0 c0 wd ht u = u := by
  ext1 k hk
  rw [xform_getElem]
  split
  · next hin =>
    have hz := h (k / 8 - r0) (k % 8 - c0) (by omega) (by omega)
    rw [show 8 * (r0 + (k / 8 - r0)) + c0 + (k % 8 - c0) = k by omega] at hz
    rw [colPass_of_zeroRegion h, ← hz, i32_coefAt]
  · rfl

/-! ## The region of the DC -/

/-- The DC is `d` and every other coefficient is 0 (R232). -/
structure DcOnly (u : Vector Word 64) (d : Int) : Prop where
  dc : coefAt u 0 = d
  ac : ∀ k, k ≠ 0 → coefAt u k = 0

/-- The value of the DC's basis function: the whole first row of the matrix of a size (R220). -/
def dcTap (size : Nat) : Int := if size = 8 then 12 else 17

theorem dcTap_mul_range {size : Nat} (hsize : size = 8 ∨ size = 4) {d : Int} (hlo : -2 ^ 26 ≤ d) (hhi : d ≤ 2 ^ 26) :
    -2 ^ 31 ≤ dcTap size * d ∧ dcTap size * d < 2 ^ 31 := by
  rcases hsize with rfl | rfl
  · change -2 ^ 31 ≤ 12 * d ∧ 12 * d < 2 ^ 31
    omega
  · change -2 ^ 31 ≤ 17 * d ∧ 17 * d < 2 ^ 31
    omega

theorem tap_zero {size n : Nat} (hsize : size = 8 ∨ size = 4) (hn : n < size) : tap size 0 n = dcTap size := by
  rcases hsize with rfl | rfl <;> (revert n; decide)

/-- What a DC-only block becomes: `v` over the first region, 0 elsewhere. -/
def firstRegion (wd ht : Nat) (v : Int) : Vector Word 64 :=
  buildCoef fun i => if i / 8 < ht ∧ i % 8 < wd then v else 0

section
variable {u : Vector Word 64} {d : Int} {wd ht : Nat}

theorem rowPass_dcOnly_first (h : DcOnly u d) (hlo : -2 ^ 26 ≤ d) (hhi : d ≤ 2 ^ 26) (hwd : wd = 8 ∨ wd = 4)
    {n : Nat} (hn : n < wd) : rowPass u 0 0 wd 0 n = dcTap wd * d := by
  have hsum : sumTo wd (fun k => tap wd k n * coefAt u (8 * (0 + 0) + 0 + k)) = dcTap wd * d := by
    rw [sumTo_eq_first (by omega) fun k hk => by rw [h.ac _ (by omega), mul_zero], h.dc, tap_zero hwd hn]
  obtain ⟨hmin, hmax⟩ := dcTap_mul_range hwd hlo hhi
  rw [rowPass_eq, hsum, toInt_i32 hmin hmax]

theorem rowPass_dcOnly_other (h : DcOnly u d) {r : Nat} (hr : r ≠ 0) (n : Nat) : rowPass u 0 0 wd r n = 0 := by
  rw [rowPass_eq, sumTo_eq_zero fun k _ => by rw [h.ac _ (by omega), mul_zero]]
  rfl

/-- Every place of the first region gets the DC times the product of the two sizes' gains (R232). -/
theorem colPass_dcOnly (h : DcOnly u d) (hlo : -2 ^ 26 ≤ d) (hhi : d ≤ 2 ^ 26) (hwd : wd = 8 ∨ wd = 4)
    (hht : ht = 8 ∨ ht = 4) {m n : Nat} (hm : m < ht) (hn : n < wd) :
    colPass u 0 0 wd ht m n = (dcTap ht * (dcTap wd * d) + 64) / 2 ^ 7 := by
  rw [colPass_eq, sumTo_eq_first (by omega) fun k hk => by rw [rowPass_dcOnly_other h hk, mul_zero],
    rowPass_dcOnly_first h hlo hhi hwd hn, tap_zero hht hm]

theorem xform_dcOnly (h : DcOnly u d) (hlo : -2 ^ 26 ≤ d) (hhi : d ≤ 2 ^ 26) (hwd : wd = 8 ∨ wd = 4)
    (hht : ht = 8 ∨ ht = 4) :
    xform 0 0 wd ht u = firstRegion wd ht ((dcTap ht * (dcTap wd * d) + 64) / 2 ^ 7) := by
  ext1 k hk
  rw [xform_getElem, firstRegion, buildCoef_getElem]
  by_cases hin : k / 8 < ht ∧ k % 8 < wd
  · rw [if_pos (by omega), if_pos hin, Nat.sub_zero, Nat.sub_zero, colPass_dcOnly h hlo hhi hwd hht hin.1 hin.2]
  · rw [if_neg (by omega), if_neg hin, ← i32_coefAt u k hk, h.ac k (by rintro rfl; omega)]

end

/-- Beyond the first region a DC-only block's transform has left zeros. -/
theorem zeroRegion_firstRegion {wd ht r0 c0 wd' ht' : Nat} (v : Int)
    (hfit : r0 + ht' ≤ 8 ∧ c0 + wd' ≤ 8) (hout : ht ≤ r0 ∨ wd ≤ c0) :
    ZeroRegion (firstRegion wd ht v) r0 c0 wd' ht' := by
  intro r j hr hj
  rw [coefAt_of_lt _ (by omega), firstRegion, buildCoef_getElem, if_neg (by omega)]
  rfl

theorem xform_firstRegion {wd ht r0 c0 wd' ht' : Nat} (v : Int)
    (hfit : r0 + ht' ≤ 8 ∧ c0 + wd' ≤ 8) (hout : ht ≤ r0 ∨ wd ≤ c0) :
    xform r0 c0 wd' ht' (firstRegion wd ht v) = firstRegion wd ht v :=
  xform_of_zeroRegion (zeroRegion_firstRegion v hfit hout)

theorem firstRegion_toInt {wd ht : Nat} {v : Int} (hlo : -2 ^ 31 ≤ v) (hhi : v < 2 ^ 31) (k : Nat) (hk : k < 64) :
    ((firstRegion wd ht v)[k]).toInt = if k / 8 < ht ∧ k % 8 < wd then v else 0 := by
  rw [firstRegion, buildCoef_getElem]
  split
  · exact toInt_i32 hlo hhi
  · rfl

/-! ## The seven commands -/

section
variable {u : Vector Word 64} {d : Int} (h : DcOnly u d) (hlo : -2 ^ 26 ≤ d) (hhi : d ≤ 2 ^ 26)
include h hlo hhi

theorem idct8x8Of_dcOnly : idct8x8Of u = firstRegion 8 8 ((144 * d + 64) / 2 ^ 7) := by
  rw [idct8x8Of, xform_dcOnly h hlo hhi (.inl rfl) (.inl rfl), ← mul_assoc]
  rfl

theorem idct8x4Of_dcOnly : idct8x4Of u = firstRegion 8 4 ((204 * d + 64) / 2 ^ 7) := by
  rw [idct8x4Of, xform_dcOnly h hlo hhi (.inl rfl) (.inr rfl), xform_firstRegion _ (by omega) (by omega),
    ← mul_assoc]
  rfl

theorem idct4x8Of_dcOnly : idct4x8Of u = firstRegion 4 8 ((204 * d + 64) / 2 ^ 7) := by
  rw [idct4x8Of, xform_dcOnly h hlo hhi (.inr rfl) (.inl rfl), xform_firstRegion _ (by omega) (by omega),
    ← mul_assoc]
  rfl

theorem idct4x4Of_dcOnly : idct4x4Of u = firstRegion 4 4 ((289 * d + 64) / 2 ^ 7) := by
  rw [idct4x4Of, xform_dcOnly h hlo hhi (.inr rfl) (.inr rfl), xform_firstRegion _ (by omega) (by omega),
    xform_firstRegion _ (by omega) (by omega), xform_firstRegion _ (by omega) (by omega), ← mul_assoc]
  rfl

end

theorem dcOnly_of_getElem {u : Vector Word 64} {d : Int} (hlo : -2 ^ 26 ≤ d) (hhi : d ≤ 2 ^ 26)
    (hdc : u[(0 : Fin 64)] = BitVec.ofInt 32 d) (hac : ∀ k : Fin 64, k.val ≠ 0 → u[k] = 0) : DcOnly u d where
  dc := by
    rw [coefAt_of_lt u (by omega), ← toInt_i32 (v := d) (by omega) (by omega)]
    exact congrArg BitVec.toInt hdc
  ac k hk := by
    by_cases hlt : k < 64
    · rw [coefAt_of_lt u hlt]
      exact congrArg BitVec.toInt (hac ⟨k, hlt⟩ hk)
    · exact coefAt_of_le u (by omega)

/-- Settles O39: the first region by `xform_dcOnly`, the regions after it by `xform_firstRegion`. -/
theorem dcOnlyBlocks : Obligations.DcOnlyBlocks := by
  intro s d herr hlo hhi hdc hac i wd ht gain hi
  have h : DcOnly s.coef d := dcOnly_of_getElem hlo hhi hdc hac
  obtain ⟨f, hexec, hf, hlow, hhigh⟩ : ∃ f : Vector Word 64 → Vector Word 64, exec i s = transform f s
      ∧ f s.coef = firstRegion wd ht ((gain * d + 64) / 2 ^ 7)
      ∧ -2 ^ 31 ≤ (gain * d + 64) / 2 ^ 7 ∧ (gain * d + 64) / 2 ^ 7 < 2 ^ 31 := by
    simp only [List.mem_cons, List.not_mem_nil, or_false, Prod.mk.injEq] at hi
    rcases hi with ⟨rfl, rfl, rfl, rfl⟩ | ⟨rfl, rfl, rfl, rfl⟩ | ⟨rfl, rfl, rfl, rfl⟩ | ⟨rfl, rfl, rfl, rfl⟩
      | ⟨rfl, rfl, rfl, rfl⟩ | ⟨rfl, rfl, rfl, rfl⟩ | ⟨rfl, rfl, rfl, rfl⟩
    · exact ⟨_, rfl, idct8x8Of_dcOnly h hlo hhi, by omega, by omega⟩
    · exact ⟨_, rfl, idct8x4Of_dcOnly h hlo hhi, by omega, by omega⟩
    · exact ⟨_, rfl, idct8x4Of_dcOnly h hlo hhi, by omega, by omega⟩
    · exact ⟨_, rfl, idct4x8Of_dcOnly h hlo hhi, by omega, by omega⟩
    · exact ⟨_, rfl, idct4x8Of_dcOnly h hlo hhi, by omega, by omega⟩
    · exact ⟨_, rfl, idct4x4Of_dcOnly h hlo hhi, by omega, by omega⟩
    · exact ⟨_, rfl, idct4x4Of_dcOnly h hlo hhi, by omega, by omega⟩
  refine ⟨f s.coef, hexec.trans (transform_run herr f), fun k => ?_⟩
  rw [hf]
  exact firstRegion_toInt hlow hhigh k k.isLt

end Sys2Proof.Machine
end

section
/-! PROOFS. What one step can do, said once: the host's port writes (O6), and the rule by which a property of
states that every kind of write keeps is kept by every step. -/

namespace Sys2Proof.Machine

/-! ## The step at each kind of port write (R86, R388) -/

theorem step_idle {s : State} (hport : s.port = []) : step s = .next s := by
  simp [step, fetchNext, hport]

theorem step_payload {s : State} {a : Nat} {v : Byte} {rest : List PortWrite}
    (hport : s.port = .payload a v :: rest) : step s = writePayload a v { s with port := rest } := by
  simp [step, fetchNext, hport]

theorem step_payloadLen {s : State} {v : Word} {rest : List PortWrite} (hport : s.port = .payloadLen v :: rest) :
    step s = .next { s with port := rest, payloadLen := n32 (min v.toNat s.params.raw.payloadMax) } := by
  simp [step, fetchNext, hport, writePayloadLen]

/-- A command word that is none is met as an illegal command, in the state that holds it (R102, R106). -/
theorem step_illegal {s : State} {w : Word} {rest : List PortWrite} (hport : s.port = .cmd w :: rest)
    (hdec : ∀ i, decode w ≠ .ok i) : step s = illegalCommand { s with port := rest, cmd := w } := by
  cases hd : decode w with
  | ok i => exact absurd hd (hdec i)
  | error e => simp [step, fetchNext, hport, hd]

theorem step_payload_of_lt {s : State} {a : Nat} {v : Byte} {rest : List PortWrite}
    (hport : s.port = .payload a v :: rest) (ha : a < s.params.raw.payloadMax) :
    step s = .next { s with port := rest, payload := memWrite s.payload a v } :=
  (step_payload hport).trans (if_pos ha)

theorem step_payload_of_le {s : State} {a : Nat} {v : Byte} {rest : List PortWrite}
    (hport : s.port = .payload a v :: rest) (ha : s.params.raw.payloadMax ≤ a) :
    step s = .fault (.noPayloadByte a) :=
  (step_payload hport).trans (if_neg (Nat.not_lt.mpr ha))

/-- A payload write that completes found its byte (R59). -/
theorem step_payload_next {s t : State} {a : Nat} {v : Byte} {rest : List PortWrite}
    (hport : s.port = .payload a v :: rest) (h : step s = .next t) :
    a < s.params.raw.payloadMax ∧ t = { s with port := rest, payload := memWrite s.payload a v } :=
  writePayload_next ((step_payload hport).symm.trans h)

/-- The host reads back the byte it wrote, and every other byte as before (R86). -/
theorem portPayload_after_payload {s t : State} {a : Nat} {v : Byte} {rest : List PortWrite}
    (hport : s.port = .payload a v :: rest) (h : step s = .next t) :
    portPayload t a = some v ∧ ∀ b, b ≠ a → portPayload t b = portPayload s b := by
  obtain ⟨ha, rfl⟩ := step_payload_next hport h
  exact ⟨by simp [portPayload, ha], fun b hb => by simp [portPayload, hb]⟩

/-- Settles O6, one clause per kind of port write. -/
theorem hostPortWrites : Obligations.HostPortWrites := fun s _ =>
  ⟨step_idle, fun _ _ => step_payload_of_lt, fun _ _ => step_payload_of_le,
    fun v hport hv => by simpa [n32, Nat.min_eq_left hv] using step_payloadLen hport,
    fun v hport hv => by simpa [n32, Nat.min_eq_right hv.le] using step_payloadLen hport,
    fun _ ha => if_pos ha, fun _ ha => if_neg (Nat.not_lt.mpr ha),
    fun _ _ _ => portPayload_after_payload,
    fun v t hport h b => by
      rw [step_payloadLen hport] at h
      cases h
      rfl⟩

/-! ## Properties that every step keeps -/

/-- The filters of `FRAME_END` leave `CUR` as it is or give it new samples in the same shape. -/
theorem filterFrame_cases (s : State) (f : Frame) :
    filterFrame s f = f ∨ SameShape (filterFrame s f) f := by
  unfold filterFrame
  dsimp only
  split <;> split
  · exact .inr ((filterStage_shape _ _ _).trans (filterStage_shape _ _ _))
  · exact .inr (filterStage_shape _ _ _)
  · exact .inr (filterStage_shape _ _ _)
  · exact .inl rfl

theorem runs_filterCur (s : State) : Runs s { s with cur := s.cur.map (filterFrame s) } where
  __ := Runs.refl s
  cur := by
    cases hc : s.cur with
    | none => exact .inl rfl
    | some f =>
      rcases filterFrame_cases s f with h | h
      · exact .inl (congrArg some h)
      · exact .inr ⟨f, _, rfl, rfl, h⟩

/-- Every kind of write a step is made of keeps `I`: the host's writes, a `raise`, what `Runs` allows, and
the writes of the six commands of R381. -/
structure StepClosed (I : State → Prop) : Prop where
  host : ∀ {s} port cmd, I s → I { s with port := port, cmd := cmd }
  payload : ∀ {s a} v, a < s.params.raw.payloadMax → I s → I { s with payload := memWrite s.payload a v }
  payloadLen : ∀ {s} (v : Word), I s → I { s with payloadLen := n32 (min v.toNat s.params.raw.payloadMax) }
  raise : ∀ {s} e, I s → I (raise e s)
  runs : ∀ {s t}, Runs s t → I s → I t
  wrcfg : ∀ {s} cfg, I s → I { s with cfg := cfg }
  resize : ∀ {s w h}, legalSize w h = true → I s → I (resizeOf w h s)
  clear : ∀ {s}, s.fstate.active = false → I s → I (clearStatus s)
  opens : ∀ {s ft} ix, s.fstate.active = false → s.mbw ≠ 0 →
    frameTypeOf (cfgCodec s) (cfgFrameType s) = some ft → I s →
    I (openFrame ix (effectiveType s ft) (clearStatus s))
  output : ∀ {s}, I s → I (outputFrame s)
  close : ∀ {s}, I s → I (closeFrame s)

section
variable {I : State → Prop} {s t : State}

theorem StepClosed.resize_keeps (hI : StepClosed I) {w h : BitVec 12} (hs : I s)
    (hrun : execResize w h s = .next t) : I t := by
  unfold execResize at hrun
  cases hl : legalSize w h with
  | false => rw [hl] at hrun; cases hrun; exact hI.raise _ hs
  | true => rw [hl] at hrun; cases hrun; exact hI.resize hl hs

theorem StepClosed.frameBegin_keeps (hI : StepClosed I) {ix : Bool} (hs : I s)
    (hrun : execFrameBegin ix s = .next t) : I t := by
  rcases execFrameBegin_cases ix s with ⟨-, h⟩ | ⟨hidle, e, h⟩ | ⟨hidle, hsize, ft, h, hft, -⟩
    <;> cases h.symm.trans hrun
  · exact hI.raise _ hs
  · exact hI.raise _ (hI.clear hidle hs)
  · exact hI.opens ix hidle hsize hft hs

theorem StepClosed.frameEnd_keeps (hI : StepClosed I) (hs : I s) (hrun : execFrameEnd s = .next t) : I t := by
  rcases execFrameEnd_cases s with ⟨-, h⟩ | ⟨-, h⟩ | ⟨-, h⟩ | ⟨-, h⟩ <;> cases h.symm.trans hrun
  · exact hI.raise _ hs
  · exact hI.close hs
  · exact hI.close (hI.output hs)
  · exact hI.close (hI.output (hI.runs (runs_filterCur s) hs))

/-- The commands that run under an error one by one, every other command by `exec_cases`. -/
theorem StepClosed.exec_keeps (hI : StepClosed I) {i : Instr} (hs : I s) (hrun : exec i s = .next t) : I t := by
  cases hi : runsUnderError i with
  | false =>
    obtain ⟨u, hu, h | ⟨e, -, h⟩⟩ := exec_cases hi s <;> cases h.symm.trans hrun
    · exact hI.runs hu hs
    · exact hI.raise e (hI.runs hu hs)
  | true =>
    cases i with
    | nop => cases hrun; exact hs
    | resize w h => exact hI.resize_keeps hs hrun
    | wrcfg idx val => cases hrun; exact hI.wrcfg _ hs
    | rdcfg idx => cases hrun; exact hI.runs runs_data hs
    | frameBegin ix => exact hI.frameBegin_keeps hs hrun
    | frameEnd => exact hI.frameEnd_keeps hs hrun
    | _ => cases hi

theorem StepClosed.illegalCommand_keeps (hI : StepClosed I) (hs : I s) (hrun : illegalCommand s = .next t) :
    I t := by
  cases herr : s.err with
  | true => cases (command_of_err herr).symm.trans hrun; exact hs
  | false => cases (command_none herr).symm.trans hrun; exact hI.raise _ hs

/-- A property that every kind of write keeps is kept by every step. -/
theorem StepClosed.step_keeps (hI : StepClosed I) (hs : I s) (hstep : step s = .next t) : I t := by
  cases hport : s.port with
  | nil => cases (step_idle hport).symm.trans hstep; exact hs
  | cons write rest =>
    cases write with
    | payload a v =>
      obtain ⟨ha, rfl⟩ := step_payload_next hport hstep
      exact hI.host rest s.cmd (hI.payload v ha hs)
    | payloadLen v =>
      cases (step_payloadLen hport).symm.trans hstep
      exact hI.host rest s.cmd (hI.payloadLen v hs)
    | cmd w =>
      by_cases hdec : ∃ i, decode w = .ok i
      · obtain ⟨i, hi⟩ := hdec
        exact hI.exec_keeps (hI.host rest w hs) ((step_cmd hport hi).symm.trans hstep)
      · exact hI.illegalCommand_keeps (hI.host rest w hs)
          ((step_illegal hport (not_exists.mp hdec)).symm.trans hstep)

end

end Sys2Proof.Machine
end

section
/-! PROOFS. Every step keeps each frame slot absent or of the picture size (O15), and every register in its
range (O16). -/

namespace Sys2Proof.Machine

/-! ## Frame slots (R51, R52) -/

theorem slotOk_none (s : State) : slotOk s none := fun _ h => by cases h

/-- A slot that a command may have written stays of the picture size. -/
theorem slotOk_of_sameSlot {s : State} {a b : Option Frame} (h : slotOk s a) (hab : SameSlot a b) :
    slotOk s b := by
  rcases hab with rfl | ⟨f, g, rfl, rfl, hwf, hw, hh⟩
  · exact h
  · obtain ⟨-, hfw, hfh⟩ := h f rfl
    intro _ hg
    cases hg
    exact ⟨hwf, hw.trans hfw, hh.trans hfh⟩

/-- What `OpenByType` may put into a slot has the picture size when the anchors have it. -/
theorem slotOk_of_opened {s : State} {slot : Option Frame} (h : FramesInv s) (hslot : Opened s slot) :
    slotOk s slot := by
  intro f hf
  rcases hslot f hf with ⟨a, ha, hfa⟩ | hfresh
  · have hanchor : a.wf ∧ a.mbw = s.mbw ∧ a.mbh = s.mbh := by
      rcases ha with ha | ha | ha | ha
      · exact h.ref a ha
      · exact h.fwd a ha
      · exact h.bwd a ha
      · exact h.w2ref a ha
    rcases hfa with rfl | ⟨hwf, hw, hh⟩
    · exact hanchor
    · exact ⟨hwf, hw.trans hanchor.2.1, hh.trans hanchor.2.2⟩
  · exact hfresh

theorem framesInv_runs {s t : State} (hr : Runs s t) (h : FramesInv s) : FramesInv t := by
  have hsize : ∀ {slot}, slotOk s slot → slotOk t slot := fun hs f hf => by
    rw [hr.mbw, hr.mbh]
    exact hs f hf
  refine ⟨hsize (slotOk_of_sameSlot h.cur hr.cur), ?_, ?_, ?_, ?_, ?_, ?_, ?_⟩
  · rw [hr.out]; exact hsize h.out
  · rw [hr.ref]; exact hsize h.ref
  · rw [hr.fwd]; exact hsize h.fwd
  · rw [hr.bwd]; exact hsize h.bwd
  · rw [hr.w2ref]; exact hsize h.w2ref
  · rw [hr.wref0]; exact hsize h.wref0
  · rw [hr.wref1]; exact hsize h.wref1

theorem framesInv_openByType {s : State} (ix : Bool) (h : FramesInv s) : FramesInv (openByType ix s) := by
  obtain ⟨fs, c, w0, w1, n, k, x, hopen, -, -, -, -, -, hc, hw0, hw1⟩ := openByType_cases ix s
  have slot : ∀ {a}, Opened s a → slotOk s a := slotOk_of_opened h
  rw [hopen]
  exact { h with cur := slot hc, wref0 := slot hw0, wref1 := slot hw1 }

/-- `OUT` and every anchor that rotates take `CUR` or an anchor (R346, R347). -/
theorem framesInv_outputFrame {s : State} (h : FramesInv s) : FramesInv (outputFrame s) := by
  obtain ⟨r, fw, bw, w2, p, hrot, hr, hfw, hbw, hw2⟩ := rotate_cases { s with out := s.cur }
  have either : ∀ {slot a b}, slot = a ∨ slot = b → slotOk s a → slotOk s b → slotOk s slot := by
    rintro slot a b (rfl | rfl) ha hb
    · exact ha
    · exact hb
  rw [outputFrame, hrot]
  exact { h with
    out := h.cur, ref := either hr h.ref h.cur, fwd := either hfw h.fwd h.bwd
    bwd := either hbw h.bwd h.cur, w2ref := either hw2 h.w2ref h.cur }

theorem framesInv_stepClosed : StepClosed FramesInv where
  host _ _ h := { h with }
  payload _ _ h := { h with }
  payloadLen _ h := { h with }
  raise _ h := { h with }
  runs := framesInv_runs
  wrcfg _ h := { h with }
  resize _ _ := by constructor <;> exact slotOk_none _
  clear _ h := { h with }
  opens ix _ _ _ h := framesInv_openByType ix { h with }
  output := framesInv_outputFrame
  close h := { h with cur := slotOk_none _, wref0 := slotOk_none _, wref1 := slotOk_none _ }

/-- Settles O15. -/
theorem stepKeepsFramesInv : Obligations.StepKeepsFramesInv := fun _ _ => framesInv_stepClosed.step_keeps

/-! ## Register ranges (R37, R39, R46, R59, R181, R250) -/

theorem n32_toNat_le (n : Nat) : (n32 n).toNat ≤ n := by
  rw [n32, BitVec.toNat_ofNat]
  exact Nat.mod_le _ _

theorem toNat_pos_of_ne_zero {w : Nat} {x : BitVec w} (h : x ≠ 0) : 0 < x.toNat :=
  Nat.pos_of_ne_zero fun h0 => h (BitVec.eq_of_toNat_eq (by simpa using h0))

theorem rangeInv_runs {s t : State} (hr : Runs s t) (h : RangeInv s) : RangeInv t where
  size := by rw [hr.mbw, hr.mbh]; exact h.size
  column := by
    rw [hr.mbw]
    rcases hr.place with ⟨hx, -⟩ | ⟨hx, -⟩
    · rw [hx]; exact h.column
    · exact .inl hx
  row := by
    rw [hr.mbh]
    rcases hr.place with ⟨-, hy⟩ | ⟨-, hy⟩
    · rw [hy]; exact h.row
    · exact .inl hy
  payloadLen := by rw [hr.payloadLen, hr.params]; exact h.payloadLen
  brLen := by
    rw [hr.params]
    rcases hr.brLen with hlen | hlen
    · rw [hlen]; exact h.brLen
    · calc t.brLen.toNat ≤ 8 * s.payloadLen.toNat := hlen ▸ n32_toNat_le _
        _ ≤ 8 * s.params.raw.payloadMax := Nat.mul_le_mul_left 8 h.payloadLen
  esc3LL := hr.esc3LL h.esc3LL
  esc3RL := hr.esc3RL h.esc3RL

/-- A legal `RESIZE` puts the position to macroblock `(0, 0)` of a picture that has one (R352). -/
theorem rangeInv_resizeOf {s : State} {w h : BitVec 12} (hl : legalSize w h = true) (hs : RangeInv s) :
    RangeInv (resizeOf w h s) := by
  obtain ⟨hw, hh⟩ : 1 ≤ w.toNat ∧ 1 ≤ h.toNat := by simpa [legalSize] using hl
  have ne_zero : ∀ {x : BitVec 12}, 1 ≤ x.toNat → x ≠ 0 := by
    rintro x hx rfl
    exact absurd hx (by decide)
  exact { hs with
    size := iff_of_false (ne_zero hw) (ne_zero hh)
    column := .inl hw
    row := .inl hh
    esc3LL := Nat.zero_le 8
    esc3RL := Nat.zero_le 6 }

/-- The position that `ResetPictureState` writes lies in the picture (R341). -/
theorem rangeInv_resetPredictors {s : State} (sentinel : Word) (hw : s.mbw ≠ 0) (h : RangeInv s) :
    RangeInv (resetPredictors sentinel s) :=
  { h with
    column := .inl (toNat_pos_of_ne_zero hw)
    row := .inl (toNat_pos_of_ne_zero (mt h.size.mpr hw))
    esc3LL := Nat.zero_le 8
    esc3RL := Nat.zero_le 6 }

theorem rangeInv_openByType {s : State} (ix : Bool) (h : RangeInv s) : RangeInv (openByType ix s) := by
  obtain ⟨fs, c, w0, w1, n, k, x, hopen, -⟩ := openByType_cases ix s
  rw [hopen]
  exact { h with }

theorem rangeInv_outputFrame {s : State} (h : RangeInv s) : RangeInv (outputFrame s) := by
  obtain ⟨r, fw, bw, w2, p, hrot, -⟩ := rotate_cases { s with out := s.cur }
  rw [outputFrame, hrot]
  exact { h with }

theorem rangeInv_stepClosed : StepClosed RangeInv where
  host _ _ h := { h with }
  payload _ _ h := { h with }
  payloadLen _ h := { h with payloadLen := (n32_toNat_le _).trans (Nat.min_le_right _ _) }
  raise _ h := { h with }
  runs := rangeInv_runs
  wrcfg _ h := { h with }
  resize := rangeInv_resizeOf
  clear _ h := { h with }
  opens ix _ hw _ h := rangeInv_openByType ix (rangeInv_resetPredictors _ hw { h with })
  output := rangeInv_outputFrame
  close h := { h with }

/-- Settles O16. -/
theorem stepKeepsRangeInv : Obligations.StepKeepsRangeInv := fun _ _ => rangeInv_stepClosed.step_keeps

end Sys2Proof.Machine
end

section
/-! PROOFS. The frame of every command (O12): a command changes no part of the state outside `partsOf` it. -/

namespace Sys2Proof.Machine

/-! ## Agreeing outside a list of parts -/

/-- `s` and `t` agree in every part that is not listed. -/
def AgreeOutside (parts : List Part) (s t : State) : Prop := ∀ p, p ∉ parts → Part.same s t p

theorem Part.same_refl (s : State) (p : Part) : Part.same s s p := by cases p <;> simp [Part.same]

theorem Part.same_trans {s t u : State} {p : Part} (h : Part.same s t p) (k : Part.same t u p) : Part.same s u p := by
  cases p <;> simp_all [Part.same]

/-- The error record and `FSTATE` are in no part. -/
theorem Part.same_raise (e : ErrCode) (s : State) (p : Part) : Part.same s (raise e s) p := Part.same_refl s p

/-- A value of part `p` after putting back: the new one when the part is listed, else the old one. -/
def kept {α : Type} (parts : List Part) (p : Part) (old new : α) : α := if p ∈ parts then new else old

@[simp] theorem kept_of_notMem {α : Type} {parts : List Part} {p : Part} (h : p ∉ parts) (old new : α) :
    kept parts p old new = old := if_neg h

/-- `t` with every part that is not listed put back to what it is in `s`. -/
def putBack (parts : List Part) (s t : State) : State :=
  { t with
    params := kept parts .host s.params t.params
    payload := kept parts .host s.payload t.payload
    payloadLen := kept parts .host s.payloadLen t.payloadLen
    cmd := kept parts .host s.cmd t.cmd
    port := kept parts .host s.port t.port
    cfg := kept parts .cfg s.cfg t.cfg
    fc := kept parts .latched s.fc t.fc
    ft := kept parts .latched s.ft t.ft
    mbw := kept parts .size s.mbw t.mbw
    mbh := kept parts .size s.mbh t.mbh
    mbx := kept parts .position s.mbx t.mbx
    mby := kept parts .position s.mby t.mby
    mquant := kept parts .mquant s.mquant t.mquant
    mqValid := kept parts .mqValid s.mqValid t.mqValid
    brPos := kept parts .brPos s.brPos t.brPos
    brLen := kept parts .brLen s.brLen t.brLen
    res0 := kept parts .res0 s.res0 t.res0
    res1 := kept parts .res1 s.res1 t.res1
    res2 := kept parts .res2 s.res2 t.res2
    dcdiff := kept parts .dcdiff s.dcdiff t.dcdiff
    pdir := kept parts .pdir s.pdir t.pdir
    coef := kept parts .coef s.coef t.coef
    pmv := kept parts .pmv s.pmv t.pmv
    mvf := kept parts .mvf s.mvf t.mvf
    mvbk := kept parts .mvbk s.mvbk t.mvbk
    esc3LL := kept parts .esc3 s.esc3LL t.esc3LL
    esc3RL := kept parts .esc3 s.esc3RL t.esc3RL
    dcb := kept parts .predictors s.dcb t.dcb
    acrow := kept parts .predictors s.acrow t.acrow
    accol := kept parts .predictors s.accol t.accol
    mvbuf := kept parts .mvbuf s.mvbuf t.mvbuf
    cbpb := kept parts .cbpb s.cbpb t.cbpb
    recon := kept parts .recon s.recon t.recon
    cur := kept parts .cur s.cur t.cur
    out := kept parts .anchors s.out t.out
    ref := kept parts .anchors s.ref t.ref
    fwd := kept parts .anchors s.fwd t.fwd
    bwd := kept parts .anchors s.bwd t.bwd
    w2ref := kept parts .anchors s.w2ref t.w2ref
    prevRrf := kept parts .anchors s.prevRrf t.prevRrf
    wref0 := kept parts .working s.wref0 t.wref0
    wref1 := kept parts .working s.wref1 t.wref1
    mcbuf0 := kept parts .mcbuf0 s.mcbuf0 t.mcbuf0
    mcbuf1 := kept parts .mcbuf1 s.mcbuf1 t.mcbuf1
    last := kept parts .last s.last t.last
    noref := kept parts .marks s.noref t.noref
    skipb := kept parts .marks s.skipb t.skipb
    ix8 := kept parts .marks s.ix8 t.ix8 }

theorem agreeOutside_putBack (parts : List Part) (s t : State) : AgreeOutside parts s (putBack parts s t) := by
  intro p hp
  cases p <;> simp [Part.same, putBack, hp]

/-- A state that putting back leaves as it is differs from `s` in the listed parts alone. -/
theorem agreeOutside_of_putBack {parts : List Part} {s t : State} (h : putBack parts s t = t) :
    AgreeOutside parts s t := h ▸ agreeOutside_putBack parts s t

theorem AgreeOutside.refl (parts : List Part) (s : State) : AgreeOutside parts s s := fun p _ => Part.same_refl s p

theorem AgreeOutside.trans {parts : List Part} {s t u : State} (h : AgreeOutside parts s t)
    (k : AgreeOutside parts t u) : AgreeOutside parts s u := fun p hp => Part.same_trans (h p hp) (k p hp)

theorem AgreeOutside.raise {parts : List Part} {s t : State} (e : ErrCode) (h : AgreeOutside parts s t) :
    AgreeOutside parts s (raise e t) := h.trans fun p _ => Part.same_raise e t p

/-! ## Rules that move the cursor -/

/-- A relation of states that rests, can be chained, and allows the cursor to move: reading and decoding
bits keep it. -/
structure CursorRel (R : State → State → Prop) : Prop where
  refl : ∀ s, R s s
  trans : ∀ a b c, R a b → R b c → R a c
  skip : ∀ n s, R s (skipBits n s)

section
variable {α β : Type} {R : State → State → Prop}

/-- A rule that ends well in `t` keeps, from `s`, what relates `s` to `t`. -/
theorem keepsFrom_ok {s t : State} {a : α} (h : R s t) :
    (∀ b u, (EStateM.Result.ok a t : EStateM.Result ErrCode State α) = .ok b u → R s u)
      ∧ ∀ e u, (EStateM.Result.ok a t : EStateM.Result ErrCode State α) = .error e u → R s u :=
  ⟨fun _ _ ht => (by cases ht; exact h), fun _ _ ht => (by cases ht)⟩

/-- A rule that ends at a `raise` in `t` keeps, from `s`, what relates `s` to `t`. -/
theorem keepsFrom_error {s t : State} {e : ErrCode} (h : R s t) :
    (∀ b u, (EStateM.Result.error e t : EStateM.Result ErrCode State α) = .ok b u → R s u)
      ∧ ∀ e' u, (EStateM.Result.error e t : EStateM.Result ErrCode State α) = .error e' u → R s u :=
  ⟨fun _ _ ht => (by cases ht), fun _ _ ht => (by cases ht; exact h)⟩

/-- A test of the state alone keeps whatever rests. -/
theorem keeps_test (refl : ∀ s, R s s) {m : Engine α}
    (h : ∀ s, (∃ a, m s = .ok a s) ∨ ∃ e, m s = .error e s) : Keeps R m := by
  intro s
  rcases h s with ⟨a, h⟩ | ⟨e, h⟩ <;> rw [h]
  · exact keepsFrom_ok (refl s)
  · exact keepsFrom_error (refl s)

theorem needBits_cases (s : State) : (∃ a, needBits s = .ok a s) ∨ ∃ e, needBits s = .error e s := by
  unfold needBits
  split
  · exact .inr ⟨_, rfl⟩
  · exact .inl ⟨_, rfl⟩

namespace CursorRel

theorem bind (hR : CursorRel R) {m : Engine α} {f : α → Engine β} (hm : Keeps R m) (hf : ∀ a, Keeps R (f a)) :
    Keeps R (m >>= f) := keeps_bind hR.trans hm hf

/-- A rule that begins by reading one bit. -/
theorem bindBit (hR : CursorRel R) {f : Bool → Engine β} (hf : ∀ b, Keeps R (f b)) : Keeps R (readBit >>= f) :=
  hR.bind (keeps_readBit hR.skip) hf

/-- A rule that begins by reading `n` bits. -/
theorem bindBits (hR : CursorRel R) {n : Nat} {f : Nat → Engine β} (hf : ∀ v, Keeps R (f v)) :
    Keeps R (readBits n >>= f) := hR.bind (keeps_readBits hR.skip n) hf

/-- A rule that begins by decoding a symbol. -/
theorem bindSym (hR : CursorRel R) {σ : Type} {es : List (VlcEntry σ)} {f : VlcEntry σ → Engine β}
    (hf : ∀ e, Keeps R (f e)) : Keeps R (decodeSym es >>= f) := by
  refine hR.bind (fun s => ?_) hf
  unfold decodeSym
  split
  · exact keepsFrom_error (hR.refl s)
  · exact keepsFrom_ok (hR.skip _ s)

/-- A rule that begins by asking for a bit and decoding a symbol (R173). -/
theorem bindNeedSym (hR : CursorRel R) {σ : Type} {es : List (VlcEntry σ)} {f : VlcEntry σ → Engine β}
    (hf : ∀ e, Keeps R (f e)) : Keeps R (needBits >>= fun _ => decodeSym es >>= f) :=
  hR.bind (keeps_test hR.refl needBits_cases) fun _ => hR.bindSym hf

theorem dcVc1 (hR : CursorRel R) (hset : ∀ v, Keeps R (setDcdiff v)) (es : List (VlcEntry Nat)) :
    Keeps R (dcVc1Rule es) := by
  refine hR.bindNeedSym fun e => ?_
  split
  · exact keeps_fail hR.refl _
  · exact hR.bindBits fun _ => hset _

theorem dcWmv2 (hR : CursorRel R) (hset : ∀ v, Keeps R (setDcdiff v)) (es : List (VlcEntry Nat)) :
    Keeps R (dcWmv2Rule es) := by
  refine hR.bindNeedSym fun e => ?_
  split
  · exact keeps_fail hR.refl _
  · split
    · exact hR.bindBits fun _ => hR.bindBit fun _ => hset _
    · split
      · exact hR.bindBit fun _ => hset _
      · exact hset _

theorem decodeRle (hR : CursorRel R) (es : List (VlcEntry AcSym)) : Keeps R (decodeRle es) := by
  refine hR.bindSym fun e => ?_
  split
  · exact keeps_pure hR.refl _
  · exact keeps_fail hR.refl _

theorem plainSym (hR : CursorRel R) (run mag : Nat) (last : Bool) : Keeps R (plainSym run mag last) :=
  hR.bindBit fun _ => keeps_pure hR.refl _

theorem escLevel (hR : CursorRel R) (es : List (VlcEntry AcSym)) : Keeps R (escLevel es) :=
  hR.bind (hR.decodeRle es) fun ⟨_, _, _⟩ => hR.bindBit fun _ => keeps_pure hR.refl _

theorem escRun (hR : CursorRel R) (es : List (VlcEntry AcSym)) : Keeps R (escRun es) :=
  hR.bind (hR.decodeRle es) fun ⟨_, _, _⟩ => hR.bindBit fun _ => keeps_pure hR.refl _

theorem escVc1 (hR : CursorRel R) (es : List (VlcEntry AcSym)) : Keeps R (escVc1 es) := by
  refine hR.bindBit fun b0 => ?_
  split
  · exact hR.escLevel es
  · refine hR.bindBit fun b1 => ?_
    split
    · exact hR.escRun es
    · exact hR.bindBit fun _ => hR.bindBits fun _ => hR.bindBits fun _ => hR.bindBit fun _ =>
        keeps_pure hR.refl _

theorem acSymVc1 (hR : CursorRel R) (es : List (VlcEntry AcSym)) : Keeps R (acSymVc1 es) := by
  refine hR.bindNeedSym fun e => ?_
  split
  · exact hR.plainSym _ _ _
  · exact hR.escVc1 es

theorem countZeros (hR : CursorRel R) (fuel ll : Nat) : Keeps R (countZeros fuel ll) := by
  induction fuel generalizing ll with
  | zero => exact keeps_pure hR.refl ll
  | succ fuel ih =>
    intro s
    unfold Machine.countZeros
    split
    · split
      · have h := ih (ll + 1) (skipBits 1 s)
        exact ⟨fun a t ht => hR.trans _ _ _ (hR.skip 1 s) (h.1 a t ht),
          fun e t ht => hR.trans _ _ _ (hR.skip 1 s) (h.2 e t ht)⟩
      · exact keepsFrom_ok (hR.skip 1 s)
    · exact keepsFrom_ok (hR.refl s)

section
variable (hR : CursorRel R) (hLL : ∀ s v, R s { s with esc3LL := v }) (hRL : ∀ s v, R s { s with esc3RL := v })
include hR hLL hRL

theorem esc3Lengths : Keeps R esc3Lengths := by
  have tail : ∀ ll : Nat, Keeps R (do
      update fun s => { s with esc3LL := BitVec.ofNat 4 ll }
      let rl ← readBits 2
      update fun s => { s with esc3RL := BitVec.ofNat 4 (rl + 3) }) := fun ll =>
    hR.bind (keeps_update fun s => hLL s _) fun _ => hR.bindBits fun _ => keeps_update fun s => hRL s _
  refine hR.bind (keeps_look hR.refl _) fun q => ?_
  split
  · refine hR.bindBits fun l3 => ?_
    split
    · exact hR.bind (hR.countZeros 9 0) tail
    · exact hR.bind (keeps_pure hR.refl l3) tail
  · exact hR.bind (hR.countZeros 9 2) tail

theorem escAbsWmv2 : Keeps R escAbsWmv2 := by
  have tail : ∀ last : Bool, Keeps R (do
      let ll ← look State.esc3LL
      let rl ← look State.esc3RL
      let run ← readBits rl.toNat
      let neg ← readBit
      let mag ← readBits ll.toNat
      pure ⟨run, signed neg mag, last⟩ : Engine RunLevel) := fun _ =>
    hR.bind (keeps_look hR.refl _) fun _ => hR.bind (keeps_look hR.refl _) fun _ => hR.bindBits fun _ =>
    hR.bindBit fun _ => hR.bindBits fun _ => keeps_pure hR.refl _
  refine hR.bindBit fun last => hR.bind (keeps_look hR.refl _) fun ll => ?_
  dsimp only
  split
  · exact hR.bind (hR.esc3Lengths hLL hRL) fun _ => tail last
  · exact tail last

theorem escWmv2 (es : List (VlcEntry AcSym)) : Keeps R (escWmv2 es) := by
  refine hR.bindBit fun b0 => ?_
  split
  · exact hR.escLevel es
  · refine hR.bindBit fun b1 => ?_
    split
    · exact hR.escRun es
    · exact hR.escAbsWmv2 hLL hRL

theorem acSymWmv2 (es : List (VlcEntry AcSym)) : Keeps R (acSymWmv2 es) := by
  refine hR.bindNeedSym fun e => ?_
  split
  · exact hR.plainSym _ _ _
  · exact hR.escWmv2 hLL hRL es

end

section
variable (hR : CursorRel R) (hcoef : ∀ s v, R s { s with coef := v }) (hlast : ∀ s v, R s { s with last := v })
include hR hcoef

theorem place (scan : List Nat) (idx : Int) (run : Nat) (level : Int) : Keeps R (place scan idx run level) := by
  intro s
  simp only [Machine.place]
  split
  · exact keepsFrom_error (hR.refl s)
  · exact keepsFrom_ok (hcoef s _)

include hlast

theorem acLoop {sym : Engine RunLevel} (hsym : Keeps R sym) (scan : List Nat) (fuel : Nat) (idx : Int) (n : Nat) :
    Keeps R (acLoop sym scan fuel idx n) := by
  induction fuel generalizing idx n with
  | zero => exact keeps_fail hR.refl _
  | succ fuel ih =>
    refine hR.bind hsym fun r => hR.bind (hR.place hcoef _ _ _ _) fun idx' =>
      hR.bind (keeps_update fun s => hlast s _) fun _ => ?_
    split
    · exact keeps_pure hR.refl _
    · exact ih _ _

theorem acBlock {sym : Engine RunLevel} (hsym : Keeps R sym)
    (hres : ∀ s v w, R s { s with res0 := v, res1 := w }) (scan : List Nat) (intra : Bool) :
    Keeps R (acBlockRule sym scan intra) :=
  hR.bind (hR.acLoop hcoef hlast hsym _ _ _ _) fun ⟨_, _⟩ => keeps_update fun s => hres s _ _

end

end CursorRel

end

/-! ## What a command leaves outside its parts -/

/-- Every next state of an outcome agrees with `s` outside the listed parts. -/
def LeavesOutside (parts : List Part) (s : State) (o : Host.Outcome State Fault Refusal) : Prop :=
  ∀ t, o = .next t → AgreeOutside parts s t

section
variable {α β : Type} {parts : List Part} {s t : State}

theorem leaves_next (h : AgreeOutside parts s t) : LeavesOutside parts s (.next t) := fun _ ht => by
  cases ht
  exact h

theorem leaves_finish {m : Engine Unit} (h : Keeps (AgreeOutside parts) m) : LeavesOutside parts s (finish m s) := by
  rcases finish_cases m s with ⟨t, hm, ht⟩ | ⟨e, t, hm, ht⟩ <;> rw [ht]
  · exact leaves_next ((h s).1 _ _ hm)
  · exact leaves_next (((h s).2 _ _ hm).raise e)

theorem leaves_always {rule : Option (Engine Unit)} (h : ∀ m, rule = some m → Keeps (AgreeOutside parts) m) :
    LeavesOutside parts s (always rule s) := by
  cases rule with
  | none => exact leaves_next ((AgreeOutside.refl parts s).raise _)
  | some m => exact leaves_finish (h m rfl)

theorem leaves_command {rule : Option (Engine Unit)} (h : ∀ m, rule = some m → Keeps (AgreeOutside parts) m) :
    LeavesOutside parts s (command rule s) := by
  unfold command
  split
  · exact leaves_next (AgreeOutside.refl parts s)
  · exact leaves_always h

theorem leaves_some {m : Engine Unit} (h : Keeps (AgreeOutside parts) m) :
    LeavesOutside parts s (command (some m) s) := leaves_command fun _ hm => by cases hm; exact h

theorem legalWhen_eq_some {legal : Bool} {m m' : Engine Unit} (h : legalWhen legal m = some m') : m' = m := by
  cases legal <;> cases h
  rfl

theorem leaves_legal {legal : Bool} {m : Engine Unit} (h : Keeps (AgreeOutside parts) m) :
    LeavesOutside parts s (command (legalWhen legal m) s) := leaves_command fun _ hm => legalWhen_eq_some hm ▸ h

theorem leaves_map {o : Option α} {f : α → Engine Unit} (h : ∀ a, Keeps (AgreeOutside parts) (f a)) :
    LeavesOutside parts s (command (o.map f) s) :=
  leaves_command fun _ hm => by
    obtain ⟨a, -, rfl⟩ := Option.map_eq_some_iff.mp hm
    exact h a

/-- One change of the state that writes listed parts alone. -/
theorem agree_write {f : State → State} (h : ∀ s, putBack parts s (f s) = f s) :
    Keeps (AgreeOutside parts) (update f) := keeps_update fun s => agreeOutside_of_putBack (h s)

theorem agree_bind {m : Engine α} {f : α → Engine β} (hm : Keeps (AgreeOutside parts) m)
    (hf : ∀ a, Keeps (AgreeOutside parts) (f a)) : Keeps (AgreeOutside parts) (m >>= f) :=
  keeps_bind (R := AgreeOutside parts) (fun _ _ _ => AgreeOutside.trans) hm hf

theorem agree_picture {f : State → State} (h : ∀ s, putBack parts s (f s) = f s) :
    Keeps (AgreeOutside parts) (do needPicture; update f) :=
  agree_bind (keeps_needPicture (AgreeOutside.refl parts)) fun _ => agree_write h

theorem agree_pixels {rule : Frame → Engine Unit} (h : ∀ f, Keeps (AgreeOutside parts) (rule f)) :
    Keeps (AgreeOutside parts) (pixelCommand rule) :=
  keeps_pixelCommand (AgreeOutside.refl parts) fun f s _ => h f s

/-- A command that lists `BR_POS` may read bits. -/
theorem agree_cursor (h : ∀ n s, putBack parts s (skipBits n s) = skipBits n s) : CursorRel (AgreeOutside parts) where
  refl := AgreeOutside.refl parts
  trans _ _ _ := AgreeOutside.trans
  skip n s := agreeOutside_of_putBack (h n s)

end

/-! ## The commands with a rule of their own -/

theorem execResize_leaves (w h : BitVec 12) (s : State) :
    LeavesOutside (partsOf (.resize w h)) s (execResize w h s) :=
  leaves_always fun _ hm => legalWhen_eq_some hm ▸ agree_write fun _ => rfl

theorem execFrameBegin_leaves (ix : Bool) (s : State) :
    LeavesOutside (partsOf (.frameBegin ix)) s (execFrameBegin ix s) := by
  have hclear : AgreeOutside (partsOf (.frameBegin ix)) s (clearStatus s) := agreeOutside_of_putBack rfl
  rcases execFrameBegin_cases ix s with ⟨-, h⟩ | ⟨-, e, h⟩ | ⟨-, -, ft, h, -⟩ <;> rw [h]
  · exact leaves_next ((AgreeOutside.refl _ s).raise _)
  · exact leaves_next (hclear.raise e)
  · obtain ⟨fs, c, w0, w1, n, k, x, hopen, -⟩ := openByType_cases ix
      (resetPredictors (sentinelOf s.params (cfgCodec s))
        { clearStatus s with fc := cfgCodec s, ft := effectiveType s ft })
    refine leaves_next (hclear.trans ?_)
    rw [show openFrame ix (effectiveType s ft) (clearStatus s) = _ from hopen]
    exact agreeOutside_of_putBack rfl

theorem outputFrame_agrees (s : State) : AgreeOutside (partsOf .frameEnd) s (outputFrame s) := by
  obtain ⟨r, fw, bw, w2, p, hrot, -⟩ := rotate_cases { s with out := s.cur }
  rw [outputFrame, hrot]
  exact agreeOutside_of_putBack rfl

theorem execFrameEnd_leaves (s : State) : LeavesOutside (partsOf .frameEnd) s (execFrameEnd s) := by
  have hclose : ∀ t, AgreeOutside (partsOf .frameEnd) t (closeFrame t) := fun t => agreeOutside_of_putBack rfl
  have hfilter : AgreeOutside (partsOf .frameEnd) s { s with cur := s.cur.map (filterFrame s) } :=
    agreeOutside_of_putBack rfl
  rcases execFrameEnd_cases s with ⟨-, h⟩ | ⟨-, h⟩ | ⟨-, h⟩ | ⟨-, h⟩ <;> rw [h]
  · exact leaves_next ((AgreeOutside.refl _ s).raise _)
  · exact leaves_next (hclose s)
  · exact leaves_next ((outputFrame_agrees s).trans (hclose _))
  · exact leaves_next ((hfilter.trans (outputFrame_agrees _)).trans (hclose _))

theorem brNeedRule_cases (n : Nat) (s : State) :
    (∃ a, brNeedRule n s = .ok a s) ∨ ∃ e, brNeedRule n s = .error e s := by
  unfold brNeedRule
  split
  · exact .inr ⟨_, rfl⟩
  · exact .inl ⟨_, rfl⟩

theorem execVlcDecode_leaves (t : BitVec 8) (s : State) :
    LeavesOutside (partsOf (.vlcDecode t)) s (execVlcDecode t s) :=
  leaves_map fun table => by
    have hcursor : CursorRel (AgreeOutside (partsOf (.vlcDecode t))) := agree_cursor fun _ _ => rfl
    cases table <;> exact hcursor.bindSym fun _ => agree_write fun _ => rfl

theorem execAcBlockVc1_leaves (t : BitVec 8) (sc : BitVec 4) (intra : Bool) (s : State) :
    LeavesOutside (partsOf (.acBlockVc1 t sc intra)) s (execAcBlockVc1 t sc intra s) := by
  have hcursor : CursorRel (AgreeOutside (partsOf (.acBlockVc1 t sc intra))) := agree_cursor fun _ _ => rfl
  refine leaves_command fun m hm => ?_
  obtain ⟨es, -, hscan⟩ := Option.bind_eq_some_iff.mp hm
  obtain ⟨scan, -, rfl⟩ := Option.map_eq_some_iff.mp hscan
  exact hcursor.acBlock (fun _ _ => agreeOutside_of_putBack rfl) (fun _ _ => agreeOutside_of_putBack rfl)
    (hcursor.acSymVc1 es) (fun _ _ _ => agreeOutside_of_putBack rfl) scan intra

theorem execAcBlockWmv2_leaves (t : BitVec 8) (sc : BitVec 4) (intra : Bool) (s : State) :
    LeavesOutside (partsOf (.acBlockWmv2 t sc intra)) s (execAcBlockWmv2 t sc intra s) := by
  have hcursor : CursorRel (AgreeOutside (partsOf (.acBlockWmv2 t sc intra))) := agree_cursor fun _ _ => rfl
  have hsym : ∀ es, Keeps (AgreeOutside (partsOf (.acBlockWmv2 t sc intra))) (acSymWmv2 es) :=
    hcursor.acSymWmv2 (fun _ _ => agreeOutside_of_putBack rfl) (fun _ _ => agreeOutside_of_putBack rfl)
  refine leaves_command fun m hm => ?_
  obtain ⟨es, -, hscan⟩ := Option.bind_eq_some_iff.mp hm
  obtain ⟨scan, -, rfl⟩ := Option.map_eq_some_iff.mp hscan
  exact hcursor.acBlock (fun _ _ => agreeOutside_of_putBack rfl) (fun _ _ => agreeOutside_of_putBack rfl)
    (hsym es) (fun _ _ _ => agreeOutside_of_putBack rfl) scan intra

theorem execAcSymWmv2_leaves (t : BitVec 8) (s : State) :
    LeavesOutside (partsOf (.acSymWmv2 t)) s (execAcSymWmv2 t s) := by
  have hcursor : CursorRel (AgreeOutside (partsOf (.acSymWmv2 t))) := agree_cursor fun _ _ => rfl
  have hsym : ∀ es, Keeps (AgreeOutside (partsOf (.acSymWmv2 t))) (acSymWmv2 es) :=
    hcursor.acSymWmv2 (fun _ _ => agreeOutside_of_putBack rfl) (fun _ _ => agreeOutside_of_putBack rfl)
  exact leaves_map fun es => hcursor.bind (hsym es) fun _ => agree_write fun _ => rfl

theorem execMvBdirect_leaves (s : State) : LeavesOutside (partsOf .mvBdirect) s (execMvBdirect s) :=
  leaves_some fun s => by
    unfold mvBdirectRule
    split
    · exact keepsFrom_error (AgreeOutside.refl _ s)
    · exact keepsFrom_ok (agreeOutside_of_putBack rfl)

theorem execMcBilin_leaves (k : Bool) (s : State) : LeavesOutside (partsOf (.mcBilin k)) s (execMcBilin k s) :=
  leaves_some (agree_pixels fun _ s => by
    unfold mcBilinRule
    split
    · exact keepsFrom_ok (agreeOutside_of_putBack rfl)
    · exact keepsFrom_error (AgreeOutside.refl _ s)
    · exact keepsFrom_ok (agreeOutside_of_putBack rfl)
    · exact keepsFrom_error (AgreeOutside.refl _ s))

theorem execMcMspel_leaves (hshift : Bool) (s : State) :
    LeavesOutside (partsOf (.mcMspel hshift)) s (execMcMspel hshift s) :=
  leaves_some (agree_pixels fun _ s => by
    unfold mcMspelRule
    split
    · exact keepsFrom_ok (agreeOutside_of_putBack rfl)
    · exact keepsFrom_error (AgreeOutside.refl _ s))

theorem execSetMv_leaves (sel addp : Bool) (x y : BitVec 11) (s : State) :
    LeavesOutside (partsOf (.setMv sel addp x y)) s (execSetMv sel addp x y s) := by
  cases sel <;> exact leaves_some (agree_write fun _ => rfl)

/-! ## Every command -/

/-- The frame of every command, read off its rule: what it writes is listed. -/
theorem exec_leaves (i : Instr) (s : State) : LeavesOutside (partsOf i) s (exec i s) := by
  cases i with
  | nop => exact leaves_next (AgreeOutside.refl _ s)
  | resize w h => exact execResize_leaves w h s
  | wrcfg idx val => exact leaves_next (agreeOutside_of_putBack rfl)
  | rdcfg idx => exact leaves_next (agreeOutside_of_putBack rfl)
  | frameBegin ix => exact execFrameBegin_leaves ix s
  | frameEnd => exact execFrameEnd_leaves s
  | setMb mbx mby => exact leaves_legal (agree_write fun _ => rfl)
  | setMquant mq => exact leaves_legal (agree_write fun _ => rfl)
  | brInit off => exact leaves_some (agree_write fun _ => rfl)
  | brReadBit => exact leaves_some ((agree_cursor fun _ _ => rfl).bindBit fun _ => agree_write fun _ => rfl)
  | brReadBits n => exact leaves_legal ((agree_cursor fun _ _ => rfl).bindBits fun _ => agree_write fun _ => rfl)
  | brReadSigned n => exact leaves_legal ((agree_cursor fun _ _ => rfl).bindBits fun _ => agree_write fun _ => rfl)
  | brPeek n => exact leaves_legal (agree_write fun _ => rfl)
  | brSkip n => exact leaves_some (agree_write fun _ => rfl)
  | brBitsLeft => exact leaves_some (agree_write fun _ => rfl)
  | brIsEmpty => exact leaves_some (agree_write fun _ => rfl)
  | brNeed n => exact leaves_some (keeps_test (AgreeOutside.refl _) (brNeedRule_cases _))
  | vlcDecode t => exact execVlcDecode_leaves t s
  | vlcMaxlevel t last run => exact leaves_map fun _ => agree_write fun _ => rfl
  | vlcMaxrun t last level => exact leaves_map fun _ => agree_write fun _ => rfl
  | dcVc1 t => exact leaves_map ((agree_cursor fun _ _ => rfl).dcVc1 fun _ => agree_write fun _ => rfl)
  | dcWmv2 t => exact leaves_map ((agree_cursor fun _ _ => rfl).dcWmv2 fun _ => agree_write fun _ => rfl)
  | clrCoef => exact leaves_some (agree_write fun _ => rfl)
  | acSymVc1 t =>
    exact leaves_map fun es => agree_bind ((agree_cursor fun _ _ => rfl).acSymVc1 es) fun _ => agree_write fun _ => rfl
  | acBlockVc1 t sc intra => exact execAcBlockVc1_leaves t sc intra s
  | acSymWmv2 t => exact execAcSymWmv2_leaves t s
  | acBlockWmv2 t sc intra => exact execAcBlockWmv2_leaves t sc intra s
  | coefWr idx v => exact leaves_some (agree_write fun _ => rfl)
  | dqVc1 b intra => exact leaves_legal (agree_write fun _ => rfl)
  | dqWmv2 b intra => exact leaves_legal (agree_write fun _ => rfl)
  | idct8x8 | idct8x4A | idct8x4B | idct4x8A | idct4x8B | idct4x4A | idct4x4B | widct8x8 | widct8x4 | widct4x8 =>
    exact leaves_some (agree_write fun _ => rfl)
  | blkPut b => exact leaves_legal (agree_pixels fun _ => agree_write fun _ => rfl)
  | blkAdd b => exact leaves_legal (agree_pixels fun _ => agree_write fun _ => rfl)
  | dcpredVc1 b => exact leaves_legal (agree_picture fun _ => rfl)
  | dcpredWmv2 b => exact leaves_legal (agree_picture fun _ => rfl)
  | predStore b => exact leaves_legal (agree_picture fun _ => rfl)
  | acpred b => exact leaves_legal (agree_picture fun _ => rfl)
  | cbppred b raw => exact leaves_some (agree_picture fun _ => rfl)
  | mvpred => exact leaves_some (agree_picture fun _ => rfl)
  | setMv sel addp x y => exact execSetMv_leaves sel addp x y s
  | mvstore skipped => exact leaves_some (agree_picture fun _ => rfl)
  | mvBdirect => exact execMvBdirect_leaves s
  | mcBilin k => exact execMcBilin_leaves k s
  | mcMspel hshift => exact execMcMspel_leaves hshift s
  | mcCommit avg => exact leaves_some (agree_pixels fun _ => agree_write fun _ => rfl)

/-- Settles O12. -/
theorem onlyListedPartsChange : Obligations.OnlyListedPartsChange := fun i s t p hrun hp => exec_leaves i s t hrun p hp

end Sys2Proof.Machine
end

section
/-! PROOFS. Samples of default, range-adjusted and output frames (O56). -/

namespace Sys2Proof.Machine

theorem toNat_u8 {v : Int} (hlo : 0 ≤ v) (hhi : v < 256) : ((u8 v).toNat : Int) = v := by
  rw [u8, BitVec.toNat_ofInt]
  omega

theorem fillOf_eq (p : PlaneId) : fillOf p = if p = .y then 16 else 128 := by cases p <;> rfl

/-! ## The range adjustment of one sample (R344) -/

theorem adjSample_off {rangered cur prev : Bool} (h : rangered = false ∨ cur = prev) (x : Byte) :
    adjSample rangered cur prev x = x := if_pos h

/-- Turning the range reduction on halves the distance to 128. -/
theorem adjSample_compress (x : Byte) :
    ((adjSample true true false x).toNat : Int) = ((x.toNat : Int) - 128) / 2 + 128 := by
  have hx : x.toNat < 256 := x.isLt
  exact toNat_u8 (v := ((x.toNat : Int) - 128) / 2 ^ 1 + 128) (by omega) (by omega)

/-- Turning the range reduction off doubles the distance to 128, within the range of a sample. -/
theorem adjSample_expand (x : Byte) :
    ((adjSample true false true x).toNat : Int) = min 255 (max 0 (2 * (x.toNat : Int) - 128)) := by
  have hval : clamp (((x.toNat : Int) - 128) * 2 + 128) 0 255 = min 255 (max 0 (2 * (x.toNat : Int) - 128)) := by
    unfold clamp
    omega
  rw [← hval]
  exact toNat_u8 (by unfold clamp; omega) (by unfold clamp; omega)

theorem adjFrame_pix (s : State) {f : Frame} {p : PlaneId} {x y : Nat} (hx : x < f.width p) (hy : y < f.height p) :
    (adjFrame s f).pix p x y
      = adjSample (cfgRangered s) (cfgRangeredfrm s) s.prevRrf (f.pix p x y) := Frame.pix_mapPix hx hy _

/-! ## The samples of `OUT` (R85, R86) -/

/-- Every plane of a frame with all its samples has its width times its height of them. -/
theorem Frame.plane_length {f : Frame} (h : f.wf) (p : PlaneId) : (f.plane p).length = f.width p * f.height p := by
  obtain ⟨hy, hcb, hcr⟩ := h
  cases p
  · exact hy
  · exact hcb
  · exact hcr

theorem Frame.plane_getElem? {f : Frame} (h : f.wf) {p : PlaneId} {x y : Nat} (hx : x < f.width p)
    (hy : y < f.height p) : (f.plane p)[y * f.width p + x]? = some (f.pix p x y) := by
  have hlt : y * f.width p + x < (f.plane p).length := by
    rw [Frame.plane_length h p]
    nlinarith
  simp [Frame.pix, hlt]

/-- Settles O56. -/
theorem frameSamples : Obligations.FrameSamples := by
  refine ⟨fun s p x y hx hy => (Frame.pix_fresh hx hy).trans (fillOf_eq p), fun s f p x y hx hy => ?_,
    fun s f p x y hout hwf hx hy => ?_⟩
  · dsimp only
    rw [adjFrame_pix s hx hy]
    refine ⟨fun h => by rw [adjSample_off h], fun hr hc hp => ?_, fun hr hc hp => ?_⟩ <;> rw [hr, hc, hp]
    · exact adjSample_compress _
    · exact adjSample_expand _
  · refine ⟨by simp [portOutValid, hout], by simp [portOutMbw, hout], by simp [portOutMbh, hout], ?_⟩
    rw [← Frame.plane_getElem? hwf hx hy]
    simp [portOut, hout]

end Sys2Proof.Machine
end

section
/-! PROOFS. The status word, the extradata word and the configuration fields (O20). -/

namespace Sys2Proof.Machine

/-! ## Configuration fields start at bit 0 (R33) -/

theorem cfgLow_eq_extractLsb' (s : State) (idx : Fin 32) (n : Nat) :
    cfgLow s idx n = (s.cfg[idx].extractLsb' 0 n).toNat := by
  simp [cfgLow]

/-- A one-bit field is bit 0 of its register. -/
theorem cfgLow_one_eq (s : State) (idx : Fin 32) : (cfgLow s idx 1 == 1) = s.cfg[idx].getLsbD 0 := by
  rw [Bool.eq_iff_iff]
  simp [cfgLow, BitVec.getLsbD, Nat.testBit_zero]

theorem cfgCodec_eq_wmv2_iff (s : State) : cfgCodec s = .wmv2 ↔ s.cfg[(0 : Fin 32)].getLsbD 0 = true := by
  have hlow : cfgLow s 0 1 < 2 := Nat.mod_lt _ (by decide)
  rw [← cfgLow_one_eq, beq_iff_eq, cfgCodec]
  split
  · simp_all
  · simp only [true_iff]
    omega

/-! ## A word made of two halves: the fields of `EX` (R34) -/

section
variable (hi lo : BitVec 16) {start len : Nat}

theorem extractLsb'_append_high (h : 16 ≤ start) :
    (hi ++ lo).extractLsb' start len = hi.extractLsb' (start - 16) len := BitVec.extractLsb'_append_eq_of_le h

theorem extractLsb'_append_low (h : start + len ≤ 16) :
    (hi ++ lo).extractLsb' start len = lo.extractLsb' start len := BitVec.extractLsb'_append_eq_of_add_le h

theorem getLsbD_append_low (h : start < 16) : (hi ++ lo).getLsbD start = lo.getLsbD start := by
  simp [-BitVec.getLsbD_eq_getElem, -Nat.reduceAdd, BitVec.getLsbD_append, h]

end

theorem exSliceCode_extradata (s : State) :
    exSliceCode (extradata s) = s.cfg[(23 : Fin 32)].extractLsb' 7 3 := extractLsb'_append_low _ _ (by decide)

theorem exSliceHeight_eq (s : State) :
    exSliceHeight s = if s.cfg[(23 : Fin 32)].extractLsb' 7 3 = 0 then none
      else some (s.mbh.toNat / (s.cfg[(23 : Fin 32)].extractLsb' 7 3).toNat) := by
  rw [exSliceHeight, exSliceCode_extradata]

/-! ## The places of the fields of `STATUS` (R57) -/

theorem flagBit_getLsbD_zero (b : Bool) : (flagBit b).getLsbD 0 = b := by cases b <;> rfl

/-- Where each field stands in a word put together as `STATUS` is, whatever the fields hold. -/
theorem statusLayout (err dir last noref skipb ix8 empty : Bool) (ecode : BitVec 4) (fst : BitVec 2) :
    let word := 0#16 ++ flagBit empty ++ fst ++ flagBit ix8 ++ flagBit skipb ++ flagBit noref ++ flagBit last
      ++ flagBit dir ++ ecode ++ 0#3 ++ flagBit err
    (word.getLsbD 0 = err ∧ word.getLsbD 8 = dir ∧ word.getLsbD 9 = last ∧ word.getLsbD 10 = noref
      ∧ word.getLsbD 11 = skipb ∧ word.getLsbD 12 = ix8 ∧ word.getLsbD 15 = empty)
    ∧ word.extractLsb' 1 3 = 0 ∧ word.extractLsb' 4 4 = ecode ∧ word.extractLsb' 13 2 = fst
    ∧ word.extractLsb' 16 16 = 0 := by
  intro word
  constructor
  · simp [word, flagBit_getLsbD_zero, -Nat.reduceAdd, -BitVec.getLsbD_eq_getElem, BitVec.getLsbD_append]
  · simp [word, -Nat.reduceAdd, BitVec.extractLsb'_append_eq_of_le, BitVec.extractLsb'_append_eq_of_add_le]

/-- Settles O20: `STATUS` by `statusLayout`, `EX` by its two halves, the fields by `cfgLow`. -/
theorem statusAndFields : Obligations.StatusAndFields := by
  intro s
  obtain ⟨⟨herr, hdir, hlast, hnoref, hskipb, hix8, hempty⟩, hlow, hecode, hfst, hhigh⟩ :=
    statusLayout s.err s.pdir s.last s.noref s.skipb s.ix8 (brEmpty s) s.ecode s.fstate.fst
  refine ⟨herr, hlow, hecode, hdir, hlast, hnoref, hskipb, hix8, ?idle, ?opened, ?suppressed, ?aborted, hempty, hhigh,
    rfl, extractLsb'_append_high _ _ (by decide), extractLsb'_append_high _ _ (by decide),
    getLsbD_append_low _ _ (by decide), getLsbD_append_low _ _ (by decide), getLsbD_append_low _ _ (by decide),
    getLsbD_append_low _ _ (by decide), getLsbD_append_low _ _ (by decide), getLsbD_append_low _ _ (by decide),
    exSliceCode_extradata s, fun h => (exSliceHeight_eq s).trans (if_pos h),
    fun h => (exSliceHeight_eq s).trans (if_neg h), cfgCodec_eq_wmv2_iff s, cfgLow_eq_extractLsb' s 1 3,
    cfgLow_eq_extractLsb' s 2 5, cfgLow_one_eq s 3, cfgLow_one_eq s 4, cfgLow_one_eq s 5, cfgLow_one_eq s 6,
    cfgLow_one_eq s 7, cfgLow_one_eq s 8, cfgLow_eq_extractLsb' s 9 2, cfgLow_one_eq s 15,
    cfgLow_eq_extractLsb' s 17 8, cfgLow_eq_extractLsb' s 18 8, cfgLow_one_eq s 20⟩
  case idle => exact fun h => hfst.trans (congrArg FState.fst h)
  case opened => exact fun h => hfst.trans (congrArg FState.fst h)
  case suppressed => exact fun _ h => hfst.trans (congrArg FState.fst h)
  case aborted => exact fun h => hfst.trans (congrArg FState.fst h)

end Sys2Proof.Machine
end

section
/-! PROOFS. The bit order of the payload (O7), and the completion of every command (O8). -/

namespace Sys2Proof.Machine

/-! ## Payload bits as digits of a byte (R81) -/

theorem bit01_getLsbD {w : Nat} (x : BitVec w) (k : Nat) : bit01 (x.getLsbD k) = x.toNat / 2 ^ k % 2 := by
  rw [BitVec.getLsbD, ← Nat.toNat_testBit]
  cases x.toNat.testBit k <;> rfl

theorem payloadBit_of_lt {s : State} {i : Nat} (h : i < s.brLen.toNat) :
    payloadBit s i = (memRead s.payload (i / 8)).toNat / 2 ^ (7 - i % 8) % 2 :=
  (if_pos h).trans (bit01_getLsbD _ _)

theorem payloadBit_of_le {s : State} {i : Nat} (h : s.brLen.toNat ≤ i) : payloadBit s i = 0 :=
  if_neg (Nat.not_lt.mpr h)

theorem payloadBit_eq (s : State) (i : Nat) :
    payloadBit s i
      = if s.brLen.toNat ≤ i then 0 else (memRead s.payload (i >>> 3)).toNat / 2 ^ (7 - i % 8) % 2 := by
  split
  case isTrue hend => exact payloadBit_of_le hend
  case isFalse hlt => rw [payloadBit_of_lt (Nat.not_le.mp hlt), Nat.shiftRight_eq_div_pow]

/-- A byte written to the memory gives its eight bits below `BR_LEN`; every other bit reads as before. -/
theorem payloadBit_of_memWrite {s t : State} {a i : Nat} {v : Byte} (hlen : t.brLen = s.brLen)
    (hmem : t.payload = memWrite s.payload a v) :
    payloadBit t i
      = if i / 8 = a ∧ i < s.brLen.toNat then v.toNat / 2 ^ (7 - i % 8) % 2 else payloadBit s i := by
  by_cases hlt : i < s.brLen.toNat
  · rw [payloadBit_of_lt (hlen ▸ hlt), payloadBit_of_lt hlt, hmem, memRead_memWrite]
    by_cases hbyte : i / 8 = a <;> simp [hbyte, hlt]
  · have hend : s.brLen.toNat ≤ i := Nat.not_lt.mp hlt
    rw [payloadBit_of_le (hlen ▸ hend), payloadBit_of_le hend, if_neg fun h => hlt h.2]

/-- Settles O7: a write of `PAYLOAD_LEN` leaves both `BR_LEN` and the bytes, on which alone a bit rests. -/
theorem payloadBits : Obligations.PayloadBits := by
  refine ⟨payloadBit_eq, fun s t a v rest i hport hstep => ?byte, fun s t v rest i hport hstep => ?length⟩
  case byte =>
    obtain ⟨-, rfl⟩ := step_payload_next hport hstep
    exact payloadBit_of_memWrite rfl rfl
  case length =>
    cases (step_payloadLen hport).symm.trans hstep
    rfl

/-! ## Completion (R87, R384) -/

theorem finish_completes (m : Engine Unit) (s : State) : ∃ t, finish m s = .next t := by
  obtain ⟨t, -, ht⟩ | ⟨e, t, -, ht⟩ := finish_cases m s
  · exact ⟨t, ht⟩
  · exact ⟨raise e t, ht⟩

theorem always_completes (rule : Option (Engine Unit)) (s : State) : ∃ t, always rule s = .next t := by
  cases rule with
  | none => exact ⟨_, always_none s⟩
  | some m => exact finish_completes m s

theorem illegalCommand_completes (s : State) : ∃ t, illegalCommand s = .next t := by
  cases herr : s.err with
  | true => exact ⟨s, command_of_err herr⟩
  | false => exact ⟨_, command_none herr⟩

/-- The six commands of R381 run `always`; every other command ends as `exec_cases` says. -/
theorem exec_completes (i : Instr) (s : State) : ∃ t, exec i s = .next t := by
  cases hi : runsUnderError i with
  | false =>
    obtain ⟨u, -, h | ⟨e, -, h⟩⟩ := exec_cases hi s
    · exact ⟨u, h⟩
    · exact ⟨raise e u, h⟩
  | true =>
    cases i with
    | nop => exact ⟨s, rfl⟩
    | resize w h => exact always_completes (legalWhen (legalSize w h) (update (resizeOf w h))) s
    | wrcfg idx val => exact ⟨_, rfl⟩
    | rdcfg idx => exact ⟨_, rfl⟩
    | frameBegin ix => exact always_completes (some (frameBeginRule ix)) s
    | frameEnd => exact always_completes (some frameEndRule) s
    | _ => cases hi

/-- A step on a command word completes, whatever the word. -/
theorem step_cmd_completes {s : State} {w : Word} {rest : List PortWrite} (hport : s.port = .cmd w :: rest) :
    ∃ t, step s = .next t := by
  by_cases hdec : ∃ i, decode w = .ok i
  · obtain ⟨i, hi⟩ := hdec
    rw [step_cmd hport hi]
    exact exec_completes i _
  · rw [step_illegal hport (not_exists.mp hdec)]
    exact illegalCommand_completes _

/-- Settles O8, the second part by the kind of the next port write. -/
theorem everyCommandCompletes : Obligations.EveryCommandCompletes := by
  refine ⟨exec_completes, fun s => ?_⟩
  cases hport : s.port with
  | nil => exact .inl ⟨s, step_idle hport⟩
  | cons write rest =>
    cases write with
    | payload a v =>
      obtain ha | ha := Nat.lt_or_ge a s.params.raw.payloadMax
      · exact .inl ⟨_, step_payload_of_lt hport ha⟩
      · exact .inr ⟨a, v, rest, rfl, ha, step_payload_of_le hport ha⟩
    | payloadLen v => exact .inl ⟨_, step_payloadLen hport⟩
    | cmd w => exact .inl (step_cmd_completes hport)

end Sys2Proof.Machine
end

section
/-! PROOFS. Each word the decoder accepts is the encoding of its command (O1 to O3), and what a word or a
command that is not legal does (O4). -/

namespace Sys2Proof

/-! ## Operand bits put back together (R101, R102) -/

/-- Two neighbouring runs of bits put together are one run: the library's lemma at the width `m + n`, where it needs no
cast and `simp` can use it on one pair after another. -/
theorem extractLsb'_append_adjacent {w mid lo m n : Nat} (a : BitVec w) (h : mid = lo + n) :
    a.extractLsb' mid m ++ a.extractLsb' lo n = a.extractLsb' lo (m + n) :=
  BitVec.extractLsb'_append_extractLsb'_eq_extractLsb' h

theorem bit_flag (a : BitVec 24) (k : Nat) : bit (flag a k) = a.extractLsb' k 1 := by
  ext j hj
  obtain rfl : j = 0 := by omega
  simp [bit, flag]

/-! ## The rows of the opcode map (R103) -/

/-- `r`, read at opcode `op` from the operand bits `a`, is no command but one with that opcode and those bits. -/
def Encodes (op : Nat) (a : BitVec 24) (r : Except Reject Instr) : Prop :=
  ∀ i, r = .ok i → i.opcode.toNat = op ∧ i.args = a

section
variable {op : Nat} {a : BitVec 24}

theorem encodes_ok {i : Instr} (hop : i.opcode.toNat = op) (hargs : i.args = a) : Encodes op a (.ok i) := by
  rintro _ ⟨⟩
  exact ⟨hop, hargs⟩

theorem encodes_error (e : Reject) : Encodes op a (.error e) := by rintro _ ⟨⟩

/-- The bits that a row reserves are the zeros that `Instr.args` puts there. -/
theorem encodes_reserved0 {lo n : Nat} {r : Except Reject Instr} (h : 0#n = a.extractLsb' lo n → Encodes op a r) :
    Encodes op a (reserved0 op a lo n r) := by
  unfold reserved0
  split
  case isTrue hzero => exact h hzero.symm
  case isFalse => exact encodes_error _

/-! ## The two selectors (R103, R104) -/

theorem encodes_decodeIdct {tt : Nat} (h : a.toNat = tt) : Encodes 0x40 a (decodeIdct tt) := by
  unfold decodeIdct
  split
  case h_8 => exact encodes_error _
  all_goals exact encodes_ok rfl (BitVec.eq_of_toNat_eq h.symm)

theorem encodes_decodeWidct {shape : Nat} (h : a.toNat = shape) : Encodes 0x41 a (decodeWidct shape) := by
  unfold decodeWidct
  split
  case h_4 => exact encodes_error _
  all_goals exact encodes_ok rfl (BitVec.eq_of_toNat_eq h.symm)

end

/-- Operand bits whose bits from `lo` up are 0 hold the number of the field below. -/
theorem toNat_eq_field {lo n : Nat} {a : BitVec 24} (hwidth : lo + n = 24) (hzero : 0#n = a.extractLsb' lo n) :
    a.toNat = (field a 0 lo).toNat := by
  have hhigh : a.toNat / 2 ^ lo % 2 ^ n = 0 := by
    simpa [Nat.shiftRight_eq_div_pow] using congrArg BitVec.toNat hzero.symm
  have hlt : a.toNat / 2 ^ lo < 2 ^ n :=
    Nat.div_lt_of_lt_mul (by rw [← pow_add, hwidth]; exact a.isLt)
  rw [Nat.mod_eq_of_lt hlt] at hhigh
  have hlow : a.toNat < 2 ^ lo := (Nat.div_eq_zero_iff.mp hhigh).resolve_left (by positivity)
  simp [field, Nat.mod_eq_of_lt hlow]

/-- The opcode map by its rows. The rows of the selectors, opcodes 0x40 and 0x41, are read by number, and an opcode
outside the map gives no command. In every other row the reserved zeros and the fields, put together in the order of
`Instr.args`, are the operand bits. -/
theorem decodeArgs_encodes (op : Nat) (a : BitVec 24) : Encodes op a (decodeArgs op a) := by
  unfold decodeArgs
  split
  case h_31 => exact encodes_reserved0 fun hzero => encodes_decodeIdct (toNat_eq_field rfl hzero)
  case h_32 => exact encodes_reserved0 fun hzero => encodes_decodeWidct (toNat_eq_field rfl hzero)
  case h_47 => exact encodes_error _
  all_goals
    repeat refine encodes_reserved0 fun hzero => ?_
    refine encodes_ok rfl ?_
    simp only [Instr.args, field, bit_flag, extractLsb'_append_adjacent, BitVec.extractLsb'_eq_self,
      BitVec.ofNat_eq_ofNat, *]

theorem encode_of_decode {w : Word} {i : Instr} (h : decode w = .ok i) : encode i = w := by
  obtain ⟨hop, hargs⟩ := decodeArgs_encodes _ _ _ h
  rw [encode, BitVec.eq_of_toNat_eq hop, hargs, opcodeOf, argsOf, extractLsb'_append_adjacent w (Nat.zero_add 24).symm,
    BitVec.extractLsb'_eq_self]

/-! ## The obligations about the encoding -/

/-- Settles O1, by the round trip proved for O5. -/
theorem decodeOfEncode : Obligations.DecodeOfEncode := decode_encode

/-- Settles O2, by the rows of the opcode map (`decodeArgs_encodes`). -/
theorem encodeOfDecode : Obligations.EncodeOfDecode := fun _ _ => encode_of_decode

/-- Settles O3, by evaluating the decoder on the eight words. -/
theorem specWords : Obligations.SpecWords := by
  unfold Obligations.SpecWords
  decide

end Sys2Proof

namespace Sys2Proof.Machine

/-! ## Commands that are not legal (R102) -/

section
variable {s : State}

theorem illegalCommand_eq (herr : s.err = false) : illegalCommand s = .next (withError 6 s) :=
  (command_none herr).trans (congrArg _ (raise_eq_withError herr .badCmd))

theorem always_of_eq_none {rule : Option (Engine Unit)} (herr : s.err = false) (h : rule = none) :
    always rule s = .next (withError 6 s) := h ▸ congrArg _ (raise_eq_withError herr .badCmd)

theorem command_of_eq_none {rule : Option (Engine Unit)} (herr : s.err = false) (h : rule = none) :
    command rule s = .next (withError 6 s) := h ▸ illegalCommand_eq herr

theorem legalWhen_of_false {legal : Bool} {m : Engine Unit} (h : legal = false) : legalWhen legal m = none :=
  h ▸ legalWhen_false m

theorem command_map_none {α : Type} {o : Option α} {f : α → Engine Unit} (herr : s.err = false)
    (h : o.isSome = false) : command (o.map f) s = .next (withError 6 s) :=
  command_of_eq_none herr (by simpa using h)

/-- The two tables of `AC_BLOCK_VC1` and `AC_BLOCK_WMV2`: the code table and the scan. -/
theorem command_bind_none {α β : Type} {o : Option α} {p : Option β} {f : α → β → Engine Unit}
    (herr : s.err = false) (h : (o.isSome && p.isSome) = false) :
    command (o.bind fun a => p.map (f a)) s = .next (withError 6 s) :=
  command_of_eq_none herr (by cases o <;> simp_all)

/-- Each command with a check in R103's legal column makes it where it runs: on the picture (`SET_MB`), on the tables it
names, or on its fields (`Instr.wf`). Every other command is always legal. -/
theorem exec_of_not_legalIn {i : Instr} (herr : s.err = false) (hlegal : legalIn s i = false) :
    exec i s = .next (withError 6 s) := by
  cases i with
  | setMb mbx mby => exact command_of_eq_none herr (legalWhen_of_false hlegal)
  | vlcDecode t | vlcMaxlevel t _ _ | vlcMaxrun t _ _ | dcVc1 t | dcWmv2 t | acSymVc1 t | acSymWmv2 t =>
    exact command_map_none herr hlegal
  | acBlockVc1 t sc _ | acBlockWmv2 t sc _ => exact command_bind_none herr hlegal
  | resize mbw mbh =>
    exact always_of_eq_none herr (legalWhen_of_false ((Bool.and_true _).symm.trans hlegal))
  | setMquant _ | brReadBits _ | brReadSigned _ | brPeek _ | dqVc1 _ _ | dqWmv2 _ _ | blkPut _ | blkAdd _
  | dcpredVc1 _ | dcpredWmv2 _ | predStore _ | acpred _ =>
    exact command_of_eq_none herr (legalWhen_of_false ((Bool.and_true _).symm.trans hlegal))
  | _ => cases hlegal

end

/-- Settles O4: a word that decodes is the encoding of its command, which is then not legal; any other word is
met as an illegal command. -/
theorem illegalCommandRaises : Obligations.IllegalCommandRaises := by
  refine ⟨fun s w rest hport herr hnone => ?_, fun s i => exec_of_not_legalIn⟩
  by_cases hdec : ∃ i, decode w = .ok i
  · obtain ⟨i, hi⟩ := hdec
    have hlegal : legalIn s i = false := hnone i (encode_of_decode hi)
    exact (step_cmd hport hi).trans (exec_of_not_legalIn herr hlegal)
  · exact (step_illegal hport (not_exists.mp hdec)).trans (illegalCommand_eq herr)

end Sys2Proof.Machine
end

section
/-! PROOFS. The bits a read takes from the payload: `BR_READ_BITS`, `BR_PEEK` and `BR_READ_BIT` (O22), and
`BR_READ_SIGNED` (O23). -/

namespace Sys2Proof.Machine

/-! ## The bits of a field read from the payload (R82, R132) -/

theorem bitsFrom_one (s : State) (pos : Nat) : bitsFrom s pos 1 = payloadBit s pos := by simp [bitsFrom]

theorem payloadBit_lt_two (s : State) (i : Nat) : payloadBit s i < 2 := bitsFrom_one s i ▸ bitsFrom_lt s i 1

/-- The first bit read is the most significant one. -/
theorem testBit_bitsFrom (s : State) (pos n j : Nat) :
    (bitsFrom s pos n).testBit j = (decide (j < n) && decide (payloadBit s (pos + (n - 1 - j)) = 1)) := by
  induction n generalizing j with
  | zero => simp [bitsFrom]
  | succ n ih =>
    have hbit := payloadBit_lt_two s (pos + n)
    cases j with
    | zero => simp [bitsFrom, Nat.testBit_zero, Nat.mod_eq_of_lt hbit]
    | succ j =>
      have hhalf : bitsFrom s pos (n + 1) / 2 = bitsFrom s pos n := by simp only [bitsFrom]; omega
      rw [Nat.testBit_succ, hhalf, ih]
      simp [Nat.sub_sub, Nat.add_comm]

theorem getLsbD_ofNat_bitsFrom (s : State) (pos n : Nat) {w j : Nat} (hj : j < w) :
    (BitVec.ofNat w (bitsFrom s pos n)).getLsbD j
      = (decide (j < n) && decide (payloadBit s (pos + (n - 1 - j)) = 1)) := by
  rw [BitVec.getLsbD_ofNat, decide_eq_true hj, Bool.true_and, testBit_bitsFrom]

/-- `sext_n` reads its argument as an `n`-bit word (R13). -/
theorem sextN_eq_toInt {n u : Nat} (h : u < 2 ^ n) : sextN n u = (BitVec.ofNat n u).toInt := by
  rw [BitVec.toInt_eq_toNat_cond, BitVec.toNat_ofNat, Nat.mod_eq_of_lt h]
  cases n with
  | zero => simp_all [sextN]
  | succ k => simp [sextN, pow_succ']

/-- From bit `n - 1` up every bit is the first bit read, the sign (R136). -/
theorem getLsbD_i32_sextN_bitsFrom (s : State) (pos n : Nat) {j : Nat} (hj : j < 32) :
    (i32 (sextN n (bitsFrom s pos n))).getLsbD j
      = (decide (n ≠ 0) && decide (payloadBit s (pos + (n - 1 - j)) = 1)) := by
  rw [sextN_eq_toInt (bitsFrom_lt s pos n), i32_toInt, BitVec.getLsbD_signExtend, decide_eq_true hj,
    Bool.true_and]
  cases n with
  | zero => simp [BitVec.msb]
  | succ k =>
    split
    case isTrue hlt =>
      rw [getLsbD_ofNat_bitsFrom s pos _ hlt]
      simp [hlt]
    case isFalse hge =>
      have hfirst : k + 1 - 1 - j = 0 := by omega
      rw [BitVec.msb_eq_getLsbD_last, getLsbD_ofNat_bitsFrom s pos _ (by simp), hfirst]
      simp

theorem n32_readBit (s : State) :
    n32 (bit01 (peekBits s 1 == 1)) = if payloadBit s s.brPos.toNat = 1 then 1 else 0 := by
  simp only [peekBits, bitsFrom_one, bit01, beq_iff_eq]
  split <;> rfl

/-! ## The commands -/

section
variable {s : State} {n : BitVec 6}

/-- A legal count lets the rule run (R135 to R137). -/
theorem command_of_legalCount (herr : s.err = false) (hn : n.toNat ≤ 32) (m : Engine Unit) :
    command (legalWhen (legalCount n) m) s = finish m s := by
  rw [show legalCount n = true from decide_eq_true hn, legalWhen_true, command_some herr]

theorem legalCount_of_gt (hn : 32 < n.toNat) : legalCount n = false := decide_eq_false (Nat.not_le.mpr hn)

/-- A field is read and its value goes into the state. -/
theorem finish_readBits_update (k : Nat) (f : Nat → State → State) :
    finish (do let v ← readBits k; update (f v)) s
      = .next (f (peekBits s k) { s with brPos := advanced s k }) := rfl

theorem exec_brReadBits (herr : s.err = false) (hn : n.toNat ≤ 32) :
    exec (.brReadBits n) s
      = .next { s with res0 := n32 (peekBits s n.toNat), brPos := advanced s n.toNat } :=
  (command_of_legalCount herr hn _).trans (finish_readBits_update _ _)

theorem exec_brReadSigned (herr : s.err = false) (hn : n.toNat ≤ 32) :
    exec (.brReadSigned n) s
      = .next { s with res0 := i32 (sextN n.toNat (peekBits s n.toNat)), brPos := advanced s n.toNat } :=
  (command_of_legalCount herr hn _).trans (finish_readBits_update _ _)

theorem exec_brPeek (herr : s.err = false) (hn : n.toNat ≤ 32) :
    exec (.brPeek n) s = .next { s with res0 := n32 (peekBits s n.toNat) } :=
  (command_of_legalCount herr hn _).trans (finish_ok (update_run _ s))

theorem exec_brReadBit (herr : s.err = false) :
    exec .brReadBit s
      = .next { s with
          res0 := if payloadBit s s.brPos.toNat = 1 then 1 else 0, brPos := advanced s 1 } := by
  rw [← n32_readBit]
  exact command_some herr

/-- The three commands with a count raise `E_BAD_CMD` when it is above 32 (R103). -/
theorem exec_of_count_gt {i : Instr} (hi : i = .brReadBits n ∨ i = .brReadSigned n ∨ i = .brPeek n)
    (herr : s.err = false) (hn : 32 < n.toNat) : exec i s = .next (withError 6 s) := by
  refine exec_of_not_legalIn herr ?_
  rcases hi with rfl | rfl | rfl <;> exact (Bool.and_true _).trans (legalCount_of_gt hn)

end

/-- Settles O22: the bits of the result are those of `PeekBits`, by `getLsbD_ofNat_bitsFrom`. -/
theorem readBits_holds : Obligations.ReadBits := fun s _ herr =>
  ⟨fun hn => ⟨_, fun _ hj => getLsbD_ofNat_bitsFrom s _ _ hj, exec_brReadBits herr hn, exec_brPeek herr hn⟩,
    exec_brReadBit herr,
    fun hn => ⟨exec_of_count_gt (.inl rfl) herr hn, exec_of_count_gt (.inr (.inr rfl)) herr hn⟩⟩

/-- Settles O23: the bits of the result are those of `sext_n`, by `getLsbD_i32_sextN_bitsFrom`. -/
theorem readSigned : Obligations.ReadSigned := by
  refine fun s n herr => ⟨fun hn => ⟨_, fun j hj => ?bits, exec_brReadSigned herr hn⟩,
    fun hn => exec_of_count_gt (.inr (.inl rfl)) herr hn⟩
  have hzero : n.toNat ≠ 0 ↔ n ≠ 0 := not_congr (BitVec.toNat_inj (y := 0#6))
  rw [← decide_eq_decide.mpr hzero]
  exact getLsbD_i32_sextN_bitsFrom s s.brPos.toNat n.toNat hj

end Sys2Proof.Machine
end

section
/-! PROOFS. The VLC decoder: the round trip of every code (O24), the bits that begin with no code (O25), and the
escape-support tables (O26). -/

namespace Sys2Proof.Machine

/-! ## The largest value over a list (R151, R152) -/

theorem le_maxOver {α : Type} {l : List α} {x : α} (f : α → Nat) (h : x ∈ l) : f x ≤ maxOver l f := by
  induction l with
  | nil => cases h
  | cons y l ih =>
    rcases List.mem_cons.mp h with rfl | hmem
    · exact Nat.le_max_left _ _
    · exact (ih hmem).trans (Nat.le_max_right _ _)

theorem maxOver_le {α : Type} {l : List α} {f : α → Nat} {b : Nat} (h : ∀ x ∈ l, f x ≤ b) : maxOver l f ≤ b := by
  induction l with
  | nil => exact Nat.zero_le b
  | cons y l ih =>
    obtain ⟨hy, hl⟩ := List.forall_mem_cons.mp h
    exact Nat.max_le.mpr ⟨hy, ih hl⟩

/-- The maximum is met, unless it is the 0 of the empty list. -/
theorem exists_mem_eq_maxOver {α : Type} {l : List α} {f : α → Nat} (h : maxOver l f ≠ 0) :
    ∃ x ∈ l, f x = maxOver l f := by
  induction l with
  | nil => exact absurd rfl h
  | cons y l ih =>
    have hcons : maxOver (y :: l) f = max (f y) (maxOver l f) := rfl
    rcases max_choice (f y) (maxOver l f) with hmax | hmax
    · exact ⟨y, List.mem_cons_self, (hcons.trans hmax).symm⟩
    · rw [hcons, hmax] at h ⊢
      obtain ⟨x, hx, hfx⟩ := ih h
      exact ⟨x, List.mem_cons_of_mem y hx, hfx⟩

/-! ## The tables that R10 admits -/

/-- Every table of an engine's parameters keeps the ranges of R10. -/
theorem tableOk_of_vlcTable {p : Params} {t : BitVec 8} {tab : VlcTable} (h : vlcTable p t = some tab) :
    Config.tableOk p.raw.maxVlcBits tab = true := by
  have hwf := p.ok
  simp only [ParamData.wf, Bool.and_eq_true, List.all_eq_true, and_assoc] at hwf
  obtain ⟨-, -, -, -, htables, -⟩ := hwf
  exact htables tab (List.mem_of_getElem? h)

theorem codesOk_of_scalar {p : Params} {t : BitVec 8} {es : List (VlcEntry Nat)}
    (h : vlcTable p t = some (.scalar es)) : Config.codesOk p.raw.maxVlcBits es = true :=
  (Bool.and_eq_true_iff.mp (tableOk_of_vlcTable h)).1

theorem codesOk_of_ac {p : Params} {t : BitVec 8} {es : List (VlcEntry AcSym)}
    (h : vlcTable p t = some (.ac es)) : Config.codesOk p.raw.maxVlcBits es = true :=
  (Bool.and_eq_true_iff.mp (tableOk_of_vlcTable h)).1

theorem acSymOk_of_ac {p : Params} {t : BitVec 8} {es : List (VlcEntry AcSym)} {e : VlcEntry AcSym}
    (h : vlcTable p t = some (.ac es)) (he : e ∈ es) : Config.acSymOk e.sym = true :=
  List.all_eq_true.mp (Bool.and_eq_true_iff.mp (tableOk_of_vlcTable h)).2 e he

theorem acTable_eq_some_iff {p : Params} {t : BitVec 8} {es : List (VlcEntry AcSym)} :
    acTable p t = some es ↔ vlcTable p t = some (.ac es) := by
  unfold acTable
  split <;> simp_all

/-! ## The code at the cursor (R151, R153)

`PeekBits(MAXB)` shifted right is a shorter read, so an entry covers the index peeked exactly when the payload holds
its code. -/

section
variable {σ : Type} {s : State} {es : List (VlcEntry σ)} {e : VlcEntry σ}

/-- The first `k` of `k + d` bits are the `k` bits read from the same position. -/
theorem bitsFrom_add_shiftRight (s : State) (pos k d : Nat) : bitsFrom s pos (k + d) >>> d = bitsFrom s pos k := by
  induction d with
  | zero => rfl
  | succ d ih =>
    have hbit := payloadBit_lt_two s (pos + (k + d))
    have hhalf : bitsFrom s pos (k + (d + 1)) / 2 = bitsFrom s pos (k + d) := by
      rw [← Nat.add_assoc, bitsFrom]
      omega
    rw [Nat.shiftRight_succ_inside, hhalf, ih]

theorem bitsFrom_shiftRight (s : State) (pos : Nat) {k n : Nat} (h : k ≤ n) :
    bitsFrom s pos n >>> (n - k) = bitsFrom s pos k := by
  simpa only [Nat.add_sub_cancel' h] using bitsFrom_add_shiftRight s pos k (n - k)

/-- A code of the table is no longer than `MAXB`. -/
theorem covers_peekBits_iff (he : e ∈ es) :
    covers (maxBits es) e (peekBits s (maxBits es)) = true ↔ bitsFrom s s.brPos.toNat e.len = e.code := by
  have hlen : e.len ≤ maxBits es := le_maxOver VlcEntry.len he
  rw [covers, peekBits, bitsFrom_shiftRight s _ hlen, decide_eq_true_iff]

theorem prefixFree_comm (a b : VlcEntry σ) : Config.prefixFree a b = Config.prefixFree b a := by
  simp only [Config.prefixFree, Nat.min_comm a.len, ne_comm]

/-- Two codes at one position begin with the same bits, as many as the shorter one has. -/
theorem prefixFree_of_codeAt {p : Nat} {a b : VlcEntry σ} (ha : CodeAt s es p a) (hb : CodeAt s es p b) :
    Config.prefixFree a b = false := by
  obtain ⟨-, hacode⟩ := ha
  obtain ⟨-, hbcode⟩ := hb
  rw [Config.prefixFree, ← hacode, ← hbcode, bitsFrom_shiftRight s p (Nat.min_le_left ..),
    bitsFrom_shiftRight s p (Nat.min_le_right ..)]
  simp

/-- No code of a legal table begins with another (R10), so at most one of them stands at a position. -/
theorem codeAt_unique {maxb p : Nat} {a b : VlcEntry σ} (hok : Config.codesOk maxb es = true)
    (ha : CodeAt s es p a) (hb : CodeAt s es p b) : a = b := by
  have hpair : es.Pairwise fun a b => Config.prefixFree a b = true :=
    of_decide_eq_true (Bool.and_eq_true_iff.mp hok).2
  have hsymm : Std.Symm fun a b : VlcEntry σ => Config.prefixFree a b = true :=
    ⟨fun a b h => (prefixFree_comm b a).trans h⟩
  by_contra hne
  have hfree : Config.prefixFree a b = true := hpair.forall ha.1 hb.1 hne
  rw [prefixFree_of_codeAt ha hb] at hfree
  cases hfree

theorem codeAt_of_flatEntry (h : flatEntry es (peekBits s (maxBits es)) = some e) :
    CodeAt s es s.brPos.toNat e := by
  rw [flatEntry] at h
  have hmem : e ∈ es := List.mem_of_find?_eq_some h
  have hcovers := List.find?_some h
  exact ⟨hmem, (covers_peekBits_iff hmem).mp hcovers⟩

theorem flatEntry_eq_none_iff :
    flatEntry es (peekBits s (maxBits es)) = none ↔ NoCodeAt s es s.brPos.toNat := by
  rw [flatEntry, List.find?_eq_none]
  exact forall₂_congr fun e he => not_congr (covers_peekBits_iff he)

theorem flatEntry_of_codeAt {maxb : Nat} (hok : Config.codesOk maxb es = true)
    (hcode : CodeAt s es s.brPos.toNat e) : flatEntry es (peekBits s (maxBits es)) = some e := by
  cases hfound : flatEntry es (peekBits s (maxBits es)) with
  | none => exact absurd hcode.2 (flatEntry_eq_none_iff.mp hfound e hcode.1)
  | some e' => rw [codeAt_unique hok (codeAt_of_flatEntry hfound) hcode]

/-- `VlcDecode` with a code at the cursor (R153). -/
theorem decodeSym_of_codeAt {maxb : Nat} (hok : Config.codesOk maxb es = true)
    (hcode : CodeAt s es s.brPos.toNat e) : decodeSym es s = .ok e { s with brPos := advanced s e.len } := by
  rw [decodeSym, flatEntry_of_codeAt hok hcode]
  rfl

/-- `VlcDecode` with no code at the cursor (R153). -/
theorem decodeSym_of_noCodeAt (h : NoCodeAt s es s.brPos.toNat) : decodeSym es s = .error .vlcInvalid s := by
  rw [decodeSym, flatEntry_eq_none_iff.mpr h]

/-! ## `VLC_DECODE` (R154) -/

theorem finish_vlcResult_of_codeAt {maxb : Nat} (pack : σ → Word) (hok : Config.codesOk maxb es = true)
    (hcode : CodeAt s es s.brPos.toNat e) :
    finish (vlcResult pack es) s
      = .next { s with res0 := pack e.sym, res1 := n32 e.len, brPos := advanced s e.len } :=
  finish_ok (bind_ok (decodeSym_of_codeAt hok hcode))

theorem finish_vlcResult_of_noCodeAt (pack : σ → Word) (herr : s.err = false)
    (h : NoCodeAt s es s.brPos.toNat) : finish (vlcResult pack es) s = .next (withError 1 s) := by
  rw [vlcResult, finish_error (bind_error (decodeSym_of_noCodeAt h)), raise_eq_withError herr, ErrCode.code]

end

section
variable {s : State} {t : BitVec 8}

theorem exec_vlcDecode_scalar {es : List (VlcEntry Nat)} (herr : s.err = false)
    (htab : vlcTable s.params t = some (.scalar es)) : exec (.vlcDecode t) s = finish (vlcResult n32 es) s := by
  rw [exec, execVlcDecode, htab, Option.map_some, command_some herr]

theorem exec_vlcDecode_ac {es : List (VlcEntry AcSym)} (herr : s.err = false)
    (htab : vlcTable s.params t = some (.ac es)) : exec (.vlcDecode t) s = finish (vlcResult packSym es) s := by
  rw [exec, execVlcDecode, htab, Option.map_some, command_some herr]

end

theorem packSym_rle (run level : Nat) (last : Bool) :
    packSym (.rle run level last) = BitVec.ofNat 32 ((if last then 65536 else 0) + 256 * run + level) := by
  cases last <;> simp [packSym, n32, bit01, Nat.mul_comm]

/-- Settles O24: the entry that fills the peeked index of the flat table is the one whose code stands at the cursor
(`flatEntry_of_codeAt`). -/
theorem vlcRoundTrip : Obligations.VlcRoundTrip := by
  refine fun s t herr => ⟨fun es e htab hcode => ?scalar, fun es e run level last htab hcode hsym => ?rle,
    fun es e htab hcode hsym => ?esc⟩
  case scalar =>
    exact (exec_vlcDecode_scalar herr htab).trans
      (finish_vlcResult_of_codeAt n32 (codesOk_of_scalar htab) hcode)
  case rle =>
    rw [exec_vlcDecode_ac herr htab, finish_vlcResult_of_codeAt packSym (codesOk_of_ac htab) hcode, hsym,
      packSym_rle, n32]
  case esc =>
    rw [exec_vlcDecode_ac herr htab, finish_vlcResult_of_codeAt packSym (codesOk_of_ac htab) hcode, hsym,
      packSym, n32]

/-- Settles O25: no entry fills the peeked index (`flatEntry_eq_none_iff`), and a table that does not exist makes the
command illegal. -/
theorem vlcNoMatch : Obligations.VlcNoMatch := by
  refine fun s t herr => ⟨fun es htab hnone => ?scalar, fun es htab hnone => ?ac, fun htab => ?missing⟩
  case scalar => exact (exec_vlcDecode_scalar herr htab).trans (finish_vlcResult_of_noCodeAt n32 herr hnone)
  case ac => exact (exec_vlcDecode_ac herr htab).trans (finish_vlcResult_of_noCodeAt packSym herr hnone)
  case missing => exact exec_of_not_legalIn herr (by simp [legalIn, Instr.wf, htab])

/-! ## `VLC_MAXLEVEL` and `VLC_MAXRUN` (R152, R155, R156) -/

/-- `m` is the largest number whose symbol `sym m` a table codes, 0 when it codes none of them (R152). -/
def LargestCoded (es : List (VlcEntry AcSym)) (sym : Nat → AcSym) (m : Nat) : Prop :=
  (∀ e ∈ es, ∀ v, e.sym = sym v → v ≤ m)
    ∧ ((∃ e ∈ es, e.sym = sym m) ∨ (m = 0 ∧ ∀ e ∈ es, ∀ v, e.sym ≠ sym v))

/-- The maximum of a field that reads the number of a symbol `sym v`, and 0 off those symbols. -/
theorem largestCoded_maxOver (es : List (VlcEntry AcSym)) {sym : Nat → AcSym} {field : AcSym → Nat}
    (hfield : ∀ v, field (sym v) = v) (hcoded : ∀ x, field x ≠ 0 → x = sym (field x)) :
    LargestCoded es sym (maxOver es fun e => field e.sym) := by
  have hle : ∀ e ∈ es, ∀ v, e.sym = sym v → v ≤ maxOver es fun e => field e.sym := fun e he v hv => by
    have hmax := le_maxOver (fun e : VlcEntry AcSym => field e.sym) he
    rwa [hv, hfield] at hmax
  refine ⟨hle, ?_⟩
  by_cases hzero : (maxOver es fun e => field e.sym) = 0
  · rw [hzero] at hle ⊢
    by_cases hany : ∃ e ∈ es, e.sym = sym 0
    · exact .inl hany
    · refine .inr ⟨rfl, fun e he v hv => hany ⟨e, he, ?_⟩⟩
      rwa [Nat.le_zero.mp (hle e he v hv)] at hv
  · obtain ⟨e, he, hmax⟩ := exists_mem_eq_maxOver hzero
    rw [← hmax] at hzero ⊢
    exact .inl ⟨e, he, hcoded e.sym hzero⟩

theorem maxLevel_largestCoded (es : List (VlcEntry AcSym)) (last : Bool) (run : Nat) :
    LargestCoded es (.rle run · last) (maxLevel es last run) := by
  refine largestCoded_maxOver es (fun v => if_pos ⟨rfl, rfl⟩) fun x hx => ?_
  cases x with
  | esc => exact absurd rfl hx
  | rle r l f =>
    rw [levelOf, ite_ne_right_iff] at hx
    obtain ⟨⟨rfl, rfl⟩, -⟩ := hx
    rw [levelOf, if_pos ⟨rfl, rfl⟩]

theorem maxRun_largestCoded (es : List (VlcEntry AcSym)) (last : Bool) (level : Nat) :
    LargestCoded es (.rle · level last) (maxRun es last level) := by
  refine largestCoded_maxOver es (fun v => if_pos ⟨rfl, rfl⟩) fun x hx => ?_
  cases x with
  | esc => exact absurd rfl hx
  | rle r l f =>
    rw [runOf, ite_ne_right_iff] at hx
    obtain ⟨⟨rfl, rfl⟩, -⟩ := hx
    rw [runOf, if_pos ⟨rfl, rfl⟩]

theorem levelOf_le {x : AcSym} (h : Config.acSymOk x = true) (last : Bool) (run : Nat) :
    levelOf last run x ≤ 255 := by
  cases x with
  | esc => exact Nat.zero_le 255
  | rle r l f =>
    simp only [Config.acSymOk, Bool.and_eq_true, decide_eq_true_eq] at h
    rw [levelOf]
    split <;> omega

theorem runOf_le {x : AcSym} (h : Config.acSymOk x = true) (last : Bool) (level : Nat) :
    runOf last level x ≤ 63 := by
  cases x with
  | esc => exact Nat.zero_le 63
  | rle r l f =>
    simp only [Config.acSymOk, Bool.and_eq_true, decide_eq_true_eq] at h
    rw [runOf]
    split <;> omega

section
variable {s : State} {t : BitVec 8} {es : List (VlcEntry AcSym)}

/-- A level of a legal table is at most 255 (R10). -/
theorem maxLevel_le (htab : acTable s.params t = some es) (last : Bool) (run : Nat) : maxLevel es last run ≤ 255 :=
  maxOver_le fun _ he => levelOf_le (acSymOk_of_ac (acTable_eq_some_iff.mp htab) he) last run

/-- A run of a legal table is at most 63 (R10). -/
theorem maxRun_le (htab : acTable s.params t = some es) (last : Bool) (level : Nat) : maxRun es last level ≤ 63 :=
  maxOver_le fun _ he => runOf_le (acSymOk_of_ac (acTable_eq_some_iff.mp htab) he) last level

theorem exec_vlcMaxlevel (herr : s.err = false) (htab : acTable s.params t = some es) (last : Bool)
    (run : BitVec 6) :
    exec (.vlcMaxlevel t last run) s = .next { s with res0 := n32 (maxLevel es last run.toNat) } := by
  rw [exec, execVlcMaxlevel, htab, Option.map_some, command_update herr]

theorem exec_vlcMaxrun (herr : s.err = false) (htab : acTable s.params t = some es) (last : Bool)
    (level : BitVec 8) :
    exec (.vlcMaxrun t last level) s = .next { s with res0 := n32 (maxRun es last level.toNat) } := by
  rw [exec, execVlcMaxrun, htab, Option.map_some, command_update herr]

end

/-- Settles O26: both results are maxima in the sense of `LargestCoded`, bounded by R10. -/
theorem escapeTables : Obligations.EscapeTables := by
  refine fun s t herr => ⟨fun hnone last run level => ?notAc, fun es htab => ⟨fun last run => ?level,
    fun last level => ?run⟩⟩
  case notAc =>
    exact ⟨exec_of_not_legalIn herr (by simp [legalIn, Instr.wf, hnone]),
      exec_of_not_legalIn herr (by simp [legalIn, Instr.wf, hnone])⟩
  case level =>
    exact ⟨_, exec_vlcMaxlevel herr htab last run, maxLevel_le htab last _, maxLevel_largestCoded es last _⟩
  case run =>
    exact ⟨_, exec_vlcMaxrun herr htab last level, maxRun_le htab last _, maxRun_largestCoded es last _⟩

end Sys2Proof.Machine
end

section
/-! PROOFS. The payload read from a position: what reading bits and decoding a code return with the cursor anywhere,
saturated or not, and how a rule that begins with a symbol starts (R131, R132, R153, R173). -/

namespace Sys2Proof.Machine

/-! ## The cursor at a position -/

/-- `s` with the cursor at position `p`, or at `2^32 - 1` when `p` is past that (R131). -/
def cursorAt (s : State) (p : Nat) : State := { s with brPos := BitVec.ofNat 32 (min p (2 ^ 32 - 1)) }

theorem cursorAt_add (s : State) (n : Nat) :
    cursorAt s (s.brPos.toNat + n) = { s with brPos := advanced s n } := rfl

theorem cursorAt_brPos (s : State) (p : Nat) : (cursorAt s p).brPos.toNat = min p (2 ^ 32 - 1) := by
  rw [cursorAt, BitVec.toNat_ofNat, Nat.mod_eq_of_lt (by omega)]

/-- A saturated cursor stays where it is. -/
theorem skipBits_cursorAt (n p : Nat) (s : State) : skipBits n (cursorAt s p) = cursorAt s (p + n) := by
  rw [skipBits, cursorAt_brPos, show min (min p (2 ^ 32 - 1) + n) (2 ^ 32 - 1) = min (p + n) (2 ^ 32 - 1) by omega]
  rfl

/-- The bits read rest on the payload and on `BR_LEN` alone. -/
theorem bitsFrom_congr {s t : State} (hpayload : t.payload = s.payload) (hlen : t.brLen = s.brLen) (pos n : Nat) :
    bitsFrom t pos n = bitsFrom s pos n := by
  induction n with
  | zero => rfl
  | succ n ih => rw [bitsFrom, bitsFrom, ih, payloadBit, payloadBit, hpayload, hlen]

/-- Past `BR_LEN` every bit is 0 (R81). -/
theorem bitsFrom_of_le {s : State} {pos : Nat} (h : s.brLen.toNat ≤ pos) (n : Nat) : bitsFrom s pos n = 0 := by
  induction n with
  | zero => rfl
  | succ n ih => rw [bitsFrom, ih, payloadBit_of_le (h.trans (Nat.le_add_right pos n))]

/-- A saturated cursor reads what lies past it: both are past `BR_LEN`, which has 32 bits. -/
theorem bitsFrom_cursorAt (s : State) (p n : Nat) :
    bitsFrom (cursorAt s p) (cursorAt s p).brPos.toNat n = bitsFrom s p n := by
  have hlen := s.brLen.isLt
  rw [bitsFrom_congr (s := s) (t := cursorAt s p) rfl rfl, cursorAt_brPos]
  by_cases hp : p ≤ 2 ^ 32 - 1
  · rw [Nat.min_eq_left hp]
  · rw [bitsFrom_of_le (by omega), bitsFrom_of_le (by omega)]

theorem readBits_cursorAt (n : Nat) (s : State) (p : Nat) :
    readBits n (cursorAt s p) = .ok (bitsFrom s p n) (cursorAt s (p + n)) := by
  rw [readBits_run, peekBits, bitsFrom_cursorAt, skipBits_cursorAt]

theorem readBit_cursorAt (s : State) (p : Nat) :
    readBit (cursorAt s p) = .ok (decide (payloadBit s p = 1)) (cursorAt s (p + 1)) := by
  rw [readBit_run, peekBits, bitsFrom_cursorAt, skipBits_cursorAt, bitsFrom_one]
  rfl

/-- A magnitude whose sign bit has been read (R176, R179). -/
theorem signed_payloadBit (s : State) (p mag : Nat) : signed (decide (payloadBit s p = 1)) mag = signAt s p mag := by
  simp only [signed, signAt, decide_eq_true_eq]

section
variable {σ : Type} {s : State} {es : List (VlcEntry σ)} {e : VlcEntry σ} {p maxb : Nat}

theorem decodeSym_cursorAt (hok : Config.codesOk maxb es = true) (hcode : CodeAt s es p e) :
    decodeSym es (cursorAt s p) = .ok e (cursorAt s (p + e.len)) := by
  have hhere : CodeAt (cursorAt s p) es (cursorAt s p).brPos.toNat e :=
    ⟨hcode.1, (bitsFrom_cursorAt s p e.len).trans hcode.2⟩
  rw [decodeSym_of_codeAt hok hhere, ← skipBits_eq_advanced, skipBits_cursorAt]

theorem decodeSym_cursorAt_noCode (h : NoCodeAt s es p) :
    decodeSym es (cursorAt s p) = .error .vlcInvalid (cursorAt s p) :=
  decodeSym_of_noCodeAt fun e he hcode => h e he ((bitsFrom_cursorAt s p e.len).symm.trans hcode)

/-! ## Rules that begin with a symbol (R173) -/

variable {β : Type} (f : VlcEntry σ → Engine β)

theorem needSym_underrun (hempty : s.brLen ≤ s.brPos) :
    (needBits >>= fun _ => decodeSym es >>= f) s = .error .underrun s :=
  bind_error (if_pos (decide_eq_true hempty))

theorem needSym_of_lt (hbits : s.brPos < s.brLen) :
    (needBits >>= fun _ => decodeSym es >>= f) s = (decodeSym es >>= f) s :=
  bind_ok (if_neg fun hempty => Nat.not_le.mpr hbits (of_decide_eq_true hempty))

theorem needSym_noCode (hbits : s.brPos < s.brLen) (h : NoCodeAt s es s.brPos.toNat) :
    (needBits >>= fun _ => decodeSym es >>= f) s = .error .vlcInvalid s :=
  (needSym_of_lt f hbits).trans (bind_error (decodeSym_of_noCodeAt h))

theorem needSym_codeAt (hok : Config.codesOk maxb es = true) (hbits : s.brPos < s.brLen)
    (hcode : CodeAt s es s.brPos.toNat e) :
    (needBits >>= fun _ => decodeSym es >>= f) s = f e (cursorAt s (s.brPos.toNat + e.len)) :=
  (needSym_of_lt f hbits).trans (bind_ok (decodeSym_of_codeAt hok hcode))

end

/-- A rule that raises with no error recorded (R380). -/
theorem finish_withError {m : Engine Unit} {s t : State} {e : ErrCode} (ht : t.err = false) (h : m s = .error e t) :
    finish m s = .next (withError e.code t) := by
  rw [finish_error h, raise_eq_withError ht]

end Sys2Proof.Machine
end

section
/-! PROOFS. The DC differentials: `DC_VC1` (O27) and `DC_WMV2` (O28). -/

namespace Sys2Proof.Machine

theorem scalarTable_eq_some_iff {p : Params} {t : BitVec 8} {es : List (VlcEntry Nat)} :
    scalarTable p t = some es ↔ vlcTable p t = some (.scalar es) := by
  unfold scalarTable
  split <;> simp_all

/-- The sign of a DC differential is the first bit of its raw field (R174). -/
theorem dcExtend_bitsFrom (s : State) (q size : Nat) :
    dcExtend (bitsFrom s q size) size
      = if size = 0 then 0
        else if payloadBit s q = 1 then (bitsFrom s q size : Int) else (bitsFrom s q size : Int) - 2 ^ size + 1 := by
  rw [dcExtend]
  split
  case isTrue => rfl
  case isFalse hsize =>
    have hfirst : (bitsFrom s q size).testBit (size - 1) = decide (payloadBit s q = 1) := by
      simp [testBit_bitsFrom, Nat.pos_of_ne_zero hsize]
    rw [hfirst]
    simp only [decide_eq_true_eq]

section
variable {s : State} {t : BitVec 8} {es : List (VlcEntry Nat)} {e : VlcEntry Nat}

theorem exec_dcVc1 (herr : s.err = false) (htab : scalarTable s.params t = some es) :
    exec (.dcVc1 t) s = finish (dcVc1Rule es) s := by
  rw [exec, execDcVc1, htab, Option.map_some, command_some herr]

theorem exec_dcWmv2 (herr : s.err = false) (htab : scalarTable s.params t = some es) :
    exec (.dcWmv2 t) s = finish (dcWmv2Rule es) s := by
  rw [exec, execDcWmv2, htab, Option.map_some, command_some herr]

/-- What `DC_VC1` does after the code of its size (R175). -/
theorem dcVc1Rule_codeAt (htab : scalarTable s.params t = some es) (hbits : s.brPos < s.brLen)
    (hcode : CodeAt s es s.brPos.toNat e) :
    dcVc1Rule es s
      = (if 31 < e.sym then fail .symbol
          else readBits e.sym >>= fun raw => setDcdiff (dcExtend raw e.sym) : Engine Unit)
          (cursorAt s (s.brPos.toNat + e.len)) :=
  needSym_codeAt _ (codesOk_of_scalar (scalarTable_eq_some_iff.mp htab)) hbits hcode

/-- What `DC_WMV2` does after the code of its magnitude (R176). -/
theorem dcWmv2Rule_codeAt (htab : scalarTable s.params t = some es) (hbits : s.brPos < s.brLen)
    (hcode : CodeAt s es s.brPos.toNat e) :
    dcWmv2Rule es s
      = (if 119 < e.sym then fail .symbol
          else if e.sym = 119 then readBits 8 >>= fun m => readBit >>= fun neg => setDcdiff (signed neg m)
          else if e.sym ≠ 0 then readBit >>= fun neg => setDcdiff (signed neg e.sym)
          else setDcdiff 0 : Engine Unit)
          (cursorAt s (s.brPos.toNat + e.len)) :=
  needSym_codeAt _ (codesOk_of_scalar (scalarTable_eq_some_iff.mp htab)) hbits hcode

/-- A magnitude and its sign bit, read from position `p`, complete a DC differential (R176). -/
theorem readBit_setDcdiff (s : State) (p mag : Nat) :
    (readBit >>= fun neg => setDcdiff (signed neg mag)) (cursorAt s p)
      = setDcdiff (signAt s p mag) (cursorAt s (p + 1)) := by
  rw [bind_ok (readBit_cursorAt s p), signed_payloadBit]

end

/-- Settles O27: the code is read by `needSym_codeAt`, the raw bits after it by `readBits_cursorAt`. -/
theorem dcVc1 : Obligations.DcVc1 := by
  intro s t es herr htab
  rw [exec_dcVc1 herr htab]
  refine ⟨fun hempty => finish_withError herr (needSym_underrun _ hempty),
    fun hbits hnone => finish_withError herr (needSym_noCode _ hbits hnone),
    fun e hbits hcode => ⟨fun hbig => ?tooBig, fun hsize => ?size⟩⟩
  case tooBig =>
    have hrule := dcVc1Rule_codeAt htab hbits hcode
    rw [if_pos hbig] at hrule
    exact finish_withError (t := cursorAt s _) herr hrule
  case size =>
    have hrule := dcVc1Rule_codeAt htab hbits hcode
    rw [if_neg (Nat.not_lt.mpr hsize), bind_ok (readBits_cursorAt ..), dcExtend_bitsFrom, Nat.add_assoc] at hrule
    exact finish_ok hrule

/-- Settles O28: the code is read by `needSym_codeAt`; the fields after it go by the decoded magnitude. -/
theorem dcWmv2 : Obligations.DcWmv2 := by
  intro s t es herr htab
  rw [exec_dcWmv2 herr htab]
  refine ⟨fun hempty => finish_withError herr (needSym_underrun _ hempty),
    fun hbits hnone => finish_withError herr (needSym_noCode _ hbits hnone),
    fun e hbits hcode => ?code⟩
  have hrule := dcWmv2Rule_codeAt htab hbits hcode
  refine ⟨fun hbig => ?tooBig, fun hmax => ?absolute, fun hpos hlt => ?signBit, fun hzero => ?zero⟩
  case tooBig =>
    rw [if_pos hbig] at hrule
    exact finish_withError (t := cursorAt s _) herr hrule
  case absolute =>
    rw [if_neg hmax.not_gt, if_pos hmax, bind_ok (readBits_cursorAt ..), readBit_setDcdiff,
      Nat.add_assoc, Nat.add_assoc] at hrule
    exact finish_ok hrule
  case signBit =>
    rw [if_neg (Nat.not_lt.mpr hlt.le), if_neg hlt.ne, if_pos hpos.ne', readBit_setDcdiff, Nat.add_assoc] at hrule
    exact finish_ok hrule
  case zero =>
    rw [if_neg (by omega), if_neg (by omega), if_neg (not_not.mpr hzero)] at hrule
    exact finish_ok hrule

end Sys2Proof.Machine
end

section
/-! PROOFS. The AC symbols: `AC_SYM_VC1` (O29) and `AC_SYM_WMV2` (O30). -/

namespace Sys2Proof.Machine

/-! ## The shape both codecs share (R179, R182) -/

/-- What follows a code: the sign bit of a plain symbol, or the escape `esc`. -/
def afterCode (esc : Engine RunLevel) : AcSym → Engine RunLevel
  | .rle run mag last => plainSym run mag last
  | .esc => esc

/-- The AC symbol of a codec whose escapes are `esc`. -/
def acSymOf (es : List (VlcEntry AcSym)) (esc : Engine RunLevel) : Engine RunLevel :=
  needBits >>= fun _ => decodeSym es >>= fun e => afterCode esc e.sym

/-- An escape that decodes a second code, whose run and magnitude `adj` completes (R180, R182). -/
def offsetSym (es : List (VlcEntry AcSym)) (adj : Nat → Nat → Bool → Nat × Nat) : Engine RunLevel := do
  let (run, mag, last) ← decodeRle es
  plainSym (adj run mag last).1 (adj run mag last).2 last

/-- The escapes by the bits that choose them: `b` for the level offset, `b` after its complement for the run offset,
else the absolute escape (R180 with `b` = 0, R182 with `b` = 1). -/
def escOf (es : List (VlcEntry AcSym)) (b : Bool) (absolute : Engine RunLevel) : Engine RunLevel := do
  let b0 ← readBit
  if b0 = b then offsetSym es fun run base last => (run, base + maxLevel es last run + 1) else do
    let b1 ← readBit
    if b1 = b then offsetSym es fun brun mag last => (min (brun + maxRun es last mag + 1) 63, mag) else absolute

theorem acSymVc1_eq (es : List (VlcEntry AcSym)) : acSymVc1 es = acSymOf es (escOf es false escAbsVc1) := rfl

theorem acSymWmv2_eq (es : List (VlcEntry AcSym)) : acSymWmv2 es = acSymOf es (escOf es true escAbsWmv2) := rfl

theorem plainSym_cursorAt (s : State) (p run mag : Nat) (last : Bool) :
    plainSym run mag last (cursorAt s p) = .ok ⟨run, signAt s p mag, last⟩ (cursorAt s (p + 1)) := by
  rw [plainSym, bind_ok (readBit_cursorAt s p), signed_payloadBit, pure_run]

theorem finish_acSymResult_ok {sym : Engine RunLevel} {s u : State} {r : RunLevel} (h : sym s = .ok r u) :
    finish (acSymResult sym) s = .next (acSymDone u r.run r.level r.last) := by
  have hlast : n32 (bit01 r.last) = if r.last then 1 else 0 := by cases r.last <;> rfl
  have hrun : acSymResult sym s = .ok () (acSymDone u r.run r.level r.last) :=
    (bind_ok h).trans (by rw [acSymDone, ← hlast]; rfl)
  exact finish_ok hrun

theorem finish_acSymResult_error {sym : Engine RunLevel} {s u : State} {e : ErrCode} (hu : u.err = false)
    (h : sym s = .error e u) : finish (acSymResult sym) s = .next (withError e.code u) :=
  finish_withError hu (bind_error h)

section
variable {s : State} {t : BitVec 8} {es : List (VlcEntry AcSym)} {e : VlcEntry AcSym} {esc : Engine RunLevel}

theorem exec_acSymVc1 (herr : s.err = false) (htab : acTable s.params t = some es) :
    exec (.acSymVc1 t) s = finish (acSymResult (acSymOf es (escOf es false escAbsVc1))) s := by
  rw [exec, execAcSymVc1, htab, Option.map_some, command_some herr, acSymVc1_eq]

theorem exec_acSymWmv2 (herr : s.err = false) (htab : acTable s.params t = some es) :
    exec (.acSymWmv2 t) s = finish (acSymResult (acSymOf es (escOf es true escAbsWmv2))) s := by
  rw [exec, execAcSymWmv2, htab, Option.map_some, command_some herr, acSymWmv2_eq]

theorem codesOk_of_acTable (htab : acTable s.params t = some es) :
    Config.codesOk s.params.raw.maxVlcBits es = true := codesOk_of_ac (acTable_eq_some_iff.mp htab)

theorem acSymOf_codeAt (htab : acTable s.params t = some es) (hbits : s.brPos < s.brLen)
    (hcode : CodeAt s es s.brPos.toNat e) :
    acSymOf es esc s = afterCode esc e.sym (cursorAt s (s.brPos.toNat + e.len)) :=
  needSym_codeAt _ (codesOk_of_acTable htab) hbits hcode

theorem acSymOf_rle (htab : acTable s.params t = some es) (hbits : s.brPos < s.brLen)
    (hcode : CodeAt s es s.brPos.toNat e) {run mag : Nat} {last : Bool} (hsym : e.sym = .rle run mag last) :
    acSymOf es esc s
      = .ok ⟨run, signAt s (s.brPos.toNat + e.len) mag, last⟩ { s with brPos := advanced s (e.len + 1) } := by
  rw [acSymOf_codeAt htab hbits hcode, hsym, ← cursorAt_add, ← Nat.add_assoc]
  exact plainSym_cursorAt ..

theorem acSymOf_esc (htab : acTable s.params t = some es) (hbits : s.brPos < s.brLen)
    (hcode : CodeAt s es s.brPos.toNat e) (hsym : e.sym = .esc) :
    acSymOf es esc s = esc (cursorAt s (s.brPos.toNat + e.len)) := by
  rw [acSymOf_codeAt htab hbits hcode, hsym, afterCode]

/-! ## The offset escapes -/

/-- A second code that is a symbol completes the escape. -/
theorem offsetSym_rle {p run mag : Nat} {last : Bool} (adj : Nat → Nat → Bool → Nat × Nat)
    (htab : acTable s.params t = some es) (hcode : CodeAt s es p e) (hsym : e.sym = .rle run mag last) :
    offsetSym es adj (cursorAt s p)
      = .ok ⟨(adj run mag last).1, signAt s (p + e.len) (adj run mag last).2, last⟩
          (cursorAt s (p + e.len + 1)) := by
  have hrle : decodeRle es (cursorAt s p) = .ok (run, mag, last) (cursorAt s (p + e.len)) := by
    rw [decodeRle, bind_ok (decodeSym_cursorAt (codesOk_of_acTable htab) hcode), hsym]
    rfl
  rw [offsetSym, bind_ok hrle]
  exact plainSym_cursorAt ..

/-- A second `ESC` raises `E_SYMBOL` after its code. -/
theorem offsetSym_esc {p : Nat} (adj : Nat → Nat → Bool → Nat × Nat) (htab : acTable s.params t = some es)
    (hcode : CodeAt s es p e) (hsym : e.sym = .esc) :
    offsetSym es adj (cursorAt s p) = .error .symbol (cursorAt s (p + e.len)) := by
  have hesc : decodeRle es (cursorAt s p) = .error .symbol (cursorAt s (p + e.len)) := by
    rw [decodeRle, bind_ok (decodeSym_cursorAt (codesOk_of_acTable htab) hcode), hsym]
    rfl
  rw [offsetSym, bind_error hesc]

theorem offsetSym_noCode {p : Nat} (adj : Nat → Nat → Bool → Nat × Nat) (h : NoCodeAt s es p) :
    offsetSym es adj (cursorAt s p) = .error .vlcInvalid (cursorAt s p) :=
  bind_error (bind_error (decodeSym_cursorAt_noCode h))

/-- A symbol that goes on as an offset escape `k` bits after the cursor. -/
theorem offsetEscape_of_offsetSym {sym : Engine RunLevel} {k : Nat} {adj : Nat → Nat → Bool → Nat × Nat}
    (herr : s.err = false) (htab : acTable s.params t = some es)
    (h : sym s = offsetSym es adj (cursorAt s (s.brPos.toNat + k))) :
    OffsetEscape (finish (acSymResult sym) s) s es k adj := by
  refine ⟨fun hnone => ?noCode, fun e hcode => ⟨fun hsym => ?secondEsc, fun run mag last hsym => ?symbol⟩⟩
  case noCode => exact finish_acSymResult_error (u := cursorAt s _) herr (h.trans (offsetSym_noCode adj hnone))
  case secondEsc =>
    have hend := h.trans (offsetSym_esc adj htab hcode hsym)
    rw [Nat.add_assoc] at hend
    exact finish_acSymResult_error (u := cursorAt s _) herr hend
  case symbol =>
    have hend := h.trans (offsetSym_rle adj htab hcode hsym)
    rw [show s.brPos.toNat + k + e.len + 1 = s.brPos.toNat + (k + e.len + 1) by omega] at hend
    exact finish_acSymResult_ok hend

end

/-! ## The bits that choose an escape -/

section
variable {s : State} {p : Nat} {b : Bool} (es : List (VlcEntry AcSym)) (absolute : Engine RunLevel)

theorem escOf_level (h0 : decide (payloadBit s p = 1) = b) :
    escOf es b absolute (cursorAt s p)
      = offsetSym es (fun run base last => (run, base + maxLevel es last run + 1)) (cursorAt s (p + 1)) := by
  rw [escOf, bind_ok (readBit_cursorAt s p), if_pos h0]

theorem escOf_second (h0 : decide (payloadBit s p = 1) ≠ b) :
    escOf es b absolute (cursorAt s p)
      = (if decide (payloadBit s (p + 1) = 1) = b then
          offsetSym es fun brun mag last => (min (brun + maxRun es last mag + 1) 63, mag)
          else absolute) (cursorAt s (p + 2)) := by
  rw [escOf, bind_ok (readBit_cursorAt s p), if_neg h0]
  exact bind_ok (readBit_cursorAt s (p + 1))

theorem escOf_run (h0 : decide (payloadBit s p = 1) ≠ b) (h1 : decide (payloadBit s (p + 1) = 1) = b) :
    escOf es b absolute (cursorAt s p)
      = offsetSym es (fun brun mag last => (min (brun + maxRun es last mag + 1) 63, mag)) (cursorAt s (p + 2)) := by
  rw [escOf_second es absolute h0, if_pos h1]

theorem escOf_absolute (h0 : decide (payloadBit s p = 1) ≠ b) (h1 : decide (payloadBit s (p + 1) = 1) ≠ b) :
    escOf es b absolute (cursorAt s p) = absolute (cursorAt s (p + 2)) := by
  rw [escOf_second es absolute h0, if_neg h1]

end

section
variable {s : State} {t : BitVec 8} {es : List (VlcEntry AcSym)} {e : VlcEntry AcSym} {absolute : Engine RunLevel}
  {b : Bool}

theorem offsetEscape_level (herr : s.err = false) (htab : acTable s.params t = some es) (hbits : s.brPos < s.brLen)
    (hcode : CodeAt s es s.brPos.toNat e) (hsym : e.sym = .esc)
    (h0 : decide (payloadBit s (s.brPos.toNat + e.len) = 1) = b) :
    OffsetEscape (finish (acSymResult (acSymOf es (escOf es b absolute))) s) s es (e.len + 1) fun run base last =>
      (run, base + maxLevel es last run + 1) := by
  refine offsetEscape_of_offsetSym herr htab ?_
  rw [acSymOf_esc htab hbits hcode hsym, escOf_level es _ h0, Nat.add_assoc]

theorem offsetEscape_run (herr : s.err = false) (htab : acTable s.params t = some es) (hbits : s.brPos < s.brLen)
    (hcode : CodeAt s es s.brPos.toNat e) (hsym : e.sym = .esc)
    (h0 : decide (payloadBit s (s.brPos.toNat + e.len) = 1) ≠ b)
    (h1 : decide (payloadBit s (s.brPos.toNat + e.len + 1) = 1) = b) :
    OffsetEscape (finish (acSymResult (acSymOf es (escOf es b absolute))) s) s es (e.len + 2) fun brun mag last =>
      (min (brun + maxRun es last mag + 1) 63, mag) := by
  refine offsetEscape_of_offsetSym herr htab ?_
  rw [acSymOf_esc htab hbits hcode hsym, escOf_run es _ h0 h1, Nat.add_assoc]

theorem acSymOf_absolute (htab : acTable s.params t = some es) (hbits : s.brPos < s.brLen)
    (hcode : CodeAt s es s.brPos.toNat e) (hsym : e.sym = .esc)
    (h0 : decide (payloadBit s (s.brPos.toNat + e.len) = 1) ≠ b)
    (h1 : decide (payloadBit s (s.brPos.toNat + e.len + 1) = 1) ≠ b) :
    acSymOf es (escOf es b absolute) s = absolute (cursorAt s (s.brPos.toNat + e.len + 2)) :=
  (acSymOf_esc htab hbits hcode hsym).trans (escOf_absolute es absolute h0 h1)

end

/-! ## VC-1 (R180) -/

/-- Mode 3 is self-contained: last, six bits of run, eight of magnitude, the sign. -/
theorem escAbsVc1_cursorAt (s : State) (p : Nat) :
    escAbsVc1 (cursorAt s p)
      = .ok ⟨bitsFrom s (p + 1) 6, signAt s (p + 15) (bitsFrom s (p + 7) 8), decide (payloadBit s p = 1)⟩
          (cursorAt s (p + 16)) := by
  rw [escAbsVc1, bind_ok (readBit_cursorAt ..), bind_ok (readBits_cursorAt ..), bind_ok (readBits_cursorAt ..)]
  exact plainSym_cursorAt ..

/-- Settles O29: the bits after `ESC` choose an offset escape (`offsetEscape_level`, `offsetEscape_run`) or the absolute
one. -/
theorem acSymVc1_holds : Obligations.AcSymVc1 := by
  intro s t es herr htab
  rw [exec_acSymVc1 herr htab]
  refine ⟨fun hempty => finish_acSymResult_error herr (needSym_underrun _ hempty),
    fun hbits hnone => finish_acSymResult_error herr (needSym_noCode _ hbits hnone),
    fun e hbits hcode => ⟨fun run mag last hsym => ?plain, fun hsym h0 => ?level, fun hsym h0 h1 => ?run,
      fun hsym h0 h1 => ?absolute⟩⟩
  case plain => exact finish_acSymResult_ok (acSymOf_rle htab hbits hcode hsym)
  case level => exact offsetEscape_level herr htab hbits hcode hsym (by simp [h0])
  case run => exact offsetEscape_run herr htab hbits hcode hsym (by simp [h0]) (by simp [h1])
  case absolute =>
    have hend := (acSymOf_absolute htab hbits hcode hsym (b := false) (by simp [h0]) (by simp [h1])).trans
      (escAbsVc1_cursorAt ..)
    rw [Nat.add_assoc _ 2 16, Nat.add_assoc _ e.len] at hend
    exact finish_acSymResult_ok hend

/-! ## The field widths of WMV2 (R181) -/

theorem countZeros_zero {s : State} {p ll : Nat} (fuel : Nat) (hll : ll < 8) (hbit : payloadBit s p = 0) :
    countZeros (fuel + 1) ll (cursorAt s p) = countZeros fuel (ll + 1) (cursorAt s (p + 1)) := by
  have hpeek : peekBits (cursorAt s p) 1 = 0 := by rw [peekBits, bitsFrom_cursorAt, bitsFrom_one, hbit]
  rw [← skipBits_cursorAt]
  exact (if_pos hll).trans (if_pos hpeek)

theorem countZeros_one {s : State} {p ll : Nat} (fuel : Nat) (hll : ll < 8) (hbit : payloadBit s p = 1) :
    countZeros (fuel + 1) ll (cursorAt s p) = .ok ll (cursorAt s (p + 1)) := by
  have hpeek : peekBits (cursorAt s p) 1 ≠ 0 := by
    rw [peekBits, bitsFrom_cursorAt, bitsFrom_one, hbit]
    exact Nat.one_ne_zero
  rw [← skipBits_cursorAt]
  exact (if_pos hll).trans (if_neg hpeek)

theorem countZeros_eight (fuel : Nat) (s : State) : countZeros fuel 8 s = .ok 8 s := by cases fuel <;> rfl

/-- The count of R181 over `z` bits 0, when the fuel lasts up to 8. -/
theorem countZeros_of_zerosAt {s : State} {z start p used fuel : Nat} (h : ZerosAt s p start z used)
    (hfuel : 8 < start + fuel) :
    countZeros fuel start (cursorAt s p) = .ok (start + z) (cursorAt s (p + used)) := by
  induction z generalizing start p used fuel with
  | zero =>
    obtain ⟨-, -, ⟨hlt, hone, rfl⟩ | ⟨rfl, rfl⟩⟩ := h
    · obtain ⟨fuel, rfl⟩ := Nat.exists_eq_add_one_of_ne_zero (n := fuel) (by omega)
      exact countZeros_one fuel hlt hone
    · exact countZeros_eight fuel _
  | succ z ih =>
    obtain ⟨hzeros, hle, hend⟩ := h
    obtain ⟨fuel, rfl⟩ := Nat.exists_eq_add_one_of_ne_zero (n := fuel) (by omega)
    obtain ⟨u, rfl⟩ := Nat.exists_eq_add_one_of_ne_zero (n := used) (by omega)
    have hrest : ZerosAt s (p + 1) (start + 1) z u := by
      refine ⟨fun k hk => ?_, by omega, ?_⟩
      · rw [Nat.add_right_comm]
        exact hzeros (k + 1) (Nat.succ_lt_succ hk)
      · rw [Nat.add_right_comm p, Nat.add_right_comm start]
        simpa only [Nat.add_right_cancel_iff, ← Nat.add_assoc] using hend
    have hzero : payloadBit s p = 0 := hzeros 0 (Nat.succ_pos z)
    rw [countZeros_zero fuel (by omega) hzero, ih hrest (by omega), Nat.add_right_comm start, Nat.add_right_comm p]
    rfl

theorem toNat_ofNat_four {n : Nat} (h : n ≤ 8) : (BitVec.ofNat 4 n).toNat = n := by
  rw [BitVec.toNat_ofNat, Nat.mod_eq_of_lt (by omega)]

/-- `s` with the widths of escape 3 set. -/
def withWidths (s : State) (ll rl : BitVec 4) : State := { s with esc3LL := ll, esc3RL := rl }

theorem bitsFrom_withWidths (s : State) (ll rl : BitVec 4) (p n : Nat) :
    bitsFrom (withWidths s ll rl) p n = bitsFrom s p n :=
  bitsFrom_congr (s := s) (t := withWidths s ll rl) rfl rfl p n

theorem signAt_withWidths (s : State) (ll rl : BitVec 4) (p mag : Nat) :
    signAt (withWidths s ll rl) p mag = signAt s p mag := rfl

/-- The end of `Esc3Lengths()`: the level width is stored, the run width read and stored. -/
def storeWidths (ll : Nat) : Engine Unit := do
  update fun s => { s with esc3LL := BitVec.ofNat 4 ll }
  let rl ← readBits 2
  update fun s => { s with esc3RL := BitVec.ofNat 4 (rl + 3) }

theorem storeWidths_cursorAt (s : State) (p ll : Nat) :
    storeWidths ll (cursorAt s p)
      = .ok () (cursorAt (withWidths s (BitVec.ofNat 4 ll) (BitVec.ofNat 4 (bitsFrom s p 2 + 3))) (p + 2)) := by
  have hstore : storeWidths ll (cursorAt s p)
      = (readBits 2 >>= fun rl => update fun s => { s with esc3RL := BitVec.ofNat 4 (rl + 3) })
          (cursorAt (withWidths s (BitVec.ofNat 4 ll) s.esc3RL) p) := rfl
  rw [hstore, bind_ok (readBits_cursorAt ..), bitsFrom_withWidths]
  rfl

/-- `Esc3Lengths()` in a picture with `PQUANT` = `q`. -/
def lengthsOf (q : Nat) : Engine Unit :=
  if q < 8 then readBits 3 >>= fun l3 => if l3 = 0 then countZeros 9 0 >>= storeWidths else storeWidths l3
  else countZeros 9 2 >>= storeWidths

theorem esc3Lengths_run (s : State) : esc3Lengths s = lengthsOf (cfgPquant s) s := rfl

theorem esc3Lengths_of_lengthsAt {s : State} {p ll rl used : Nat} (h : LengthsAt s p ll rl used) :
    esc3Lengths (cursorAt s p)
      = .ok () (cursorAt (withWidths s (BitVec.ofNat 4 ll) (BitVec.ofNat 4 rl)) (p + used)) := by
  obtain ⟨n, rfl, rfl, hll⟩ := h
  rw [← Nat.add_assoc, ← storeWidths_cursorAt, esc3Lengths_run, show cfgPquant (cursorAt s p) = cfgPquant s from rfl,
    lengthsOf]
  rcases hll with ⟨hq, hne, rfl, rfl⟩ | ⟨hq, hzero, u, hcount, rfl⟩ | ⟨hq, z, u, hcount, rfl, rfl⟩
  · rw [if_pos hq, bind_ok (readBits_cursorAt 3 s p), if_neg hne]
  · rw [if_pos hq, bind_ok (readBits_cursorAt 3 s p), if_pos hzero,
      bind_ok (countZeros_of_zerosAt hcount (by decide)), Nat.zero_add, Nat.add_assoc]
  · rw [if_neg (Nat.not_lt.mpr hq), bind_ok (countZeros_of_zerosAt hcount (by decide))]

/-- The fields of escape 3 after its first bit, with the widths the state holds. -/
def absFields (last : Bool) : Engine RunLevel := do
  let ll ← look State.esc3LL
  let rl ← look State.esc3RL
  let run ← readBits rl.toNat
  let neg ← readBit
  let mag ← readBits ll.toNat
  pure ⟨run, signed neg mag, last⟩

theorem absFields_cursorAt (s : State) (p : Nat) (last : Bool) :
    absFields last (cursorAt s p)
      = .ok ⟨bitsFrom s p s.esc3RL.toNat,
            signAt s (p + s.esc3RL.toNat) (bitsFrom s (p + 1 + s.esc3RL.toNat) s.esc3LL.toNat), last⟩
          (cursorAt s (p + (1 + s.esc3RL.toNat + s.esc3LL.toNat))) := by
  have hfields : absFields last (cursorAt s p) = _ :=
    (bind_ok (look_run State.esc3LL _)).trans <| (bind_ok (look_run State.esc3RL _)).trans <|
      (bind_ok (readBits_cursorAt s.esc3RL.toNat s p)).trans <| (bind_ok (readBit_cursorAt s _)).trans <|
        bind_ok (readBits_cursorAt s.esc3LL.toNat s _)
  rw [hfields, signed_payloadBit, pure_run, Nat.add_right_comm p _ 1]
  simp only [Nat.add_assoc]

/-- Escape 3 with widths already derived in the picture. -/
theorem escAbsWmv2_known {s : State} (p : Nat) (hll : s.esc3LL ≠ 0) :
    escAbsWmv2 (cursorAt s p) = absFields (decide (payloadBit s p = 1)) (cursorAt s (p + 1)) := by
  refine (bind_ok (readBit_cursorAt s p)).trans <| (bind_ok (look_run State.esc3LL _)).trans ?_
  exact congrFun (if_neg hll) _

/-- The first escape 3 of a picture derives the widths. -/
theorem escAbsWmv2_first {s t : State} {p : Nat} (hll : s.esc3LL = 0)
    (hlengths : esc3Lengths (cursorAt s (p + 1)) = .ok () t) :
    escAbsWmv2 (cursorAt s p) = absFields (decide (payloadBit s p = 1)) t := by
  refine (bind_ok (readBit_cursorAt s p)).trans <| (bind_ok (look_run State.esc3LL _)).trans ?_
  exact (congrFun (if_pos hll) _).trans (bind_ok hlengths)

theorem lengthsAt_le {s : State} {p ll rl used : Nat} (h : LengthsAt s p ll rl used) : ll ≤ 8 ∧ rl ≤ 6 := by
  obtain ⟨n, -, rfl, hll⟩ := h
  have hrl := bitsFrom_lt s (p + n) 2
  refine ⟨?_, by omega⟩
  rcases hll with ⟨-, -, rfl, -⟩ | ⟨-, -, u, ⟨-, hmax, -⟩, -⟩ | ⟨-, z, u, ⟨-, hmax, -⟩, rfl, -⟩
  · have hl3 := bitsFrom_lt s p 3
    omega
  · omega
  · exact hmax

theorem absFields_withWidths (s : State) (p : Nat) (last : Bool) {ll rl : Nat} (hll : ll ≤ 8) (hrl : rl ≤ 6) :
    absFields last (cursorAt (withWidths s (BitVec.ofNat 4 ll) (BitVec.ofNat 4 rl)) p)
      = .ok ⟨bitsFrom s p rl, signAt s (p + rl) (bitsFrom s (p + 1 + rl) ll), last⟩
          (cursorAt (withWidths s (BitVec.ofNat 4 ll) (BitVec.ofNat 4 rl)) (p + (1 + rl + ll))) := by
  have hLL : (withWidths s (BitVec.ofNat 4 ll) (BitVec.ofNat 4 rl)).esc3LL.toNat = ll :=
    toNat_ofNat_four hll
  have hRL : (withWidths s (BitVec.ofNat 4 ll) (BitVec.ofNat 4 rl)).esc3RL.toNat = rl :=
    toNat_ofNat_four (by omega)
  rw [absFields_cursorAt, hLL, hRL, bitsFrom_withWidths, bitsFrom_withWidths, signAt_withWidths]

/-- Settles O30: as O29 with the choosing bits exchanged; escape 3 reads its fields by `absFields_cursorAt`, after
`esc3Lengths_of_lengthsAt` when it is the first of its picture. -/
theorem acSymWmv2_holds : Obligations.AcSymWmv2 := by
  intro s t es herr htab
  rw [exec_acSymWmv2 herr htab]
  refine ⟨fun hempty => finish_acSymResult_error herr (needSym_underrun _ hempty),
    fun hbits hnone => finish_acSymResult_error herr (needSym_noCode _ hbits hnone),
    fun e hbits hcode => ⟨fun run mag last hsym => ?plain, fun hsym h0 => ?level, fun hsym h0 h1 => ?run,
      fun hsym h0 h1 hll => ?known, fun ll rl used hsym h0 h1 hll hlengths => ?first⟩⟩
  case plain => exact finish_acSymResult_ok (acSymOf_rle htab hbits hcode hsym)
  case level => exact offsetEscape_level herr htab hbits hcode hsym (by simp [h0])
  case run => exact offsetEscape_run herr htab hbits hcode hsym (by simp [h0]) (by simp [h1])
  case known =>
    have hend := (acSymOf_absolute htab hbits hcode hsym (b := true) (by simp [h0]) (by simp [h1])).trans <|
      (escAbsWmv2_known _ hll).trans (absFields_cursorAt ..)
    rw [show s.brPos.toNat + e.len + 2 + 1 + (1 + s.esc3RL.toNat + s.esc3LL.toNat)
      = s.brPos.toNat + (e.len + 4 + s.esc3RL.toNat + s.esc3LL.toNat) by omega] at hend
    exact finish_acSymResult_ok hend
  case first =>
    obtain ⟨hll8, hrl6⟩ := lengthsAt_le hlengths
    have hend := (acSymOf_absolute htab hbits hcode hsym (b := true) (by simp [h0]) (by simp [h1])).trans <|
      (escAbsWmv2_first hll (esc3Lengths_of_lengthsAt hlengths)).trans (absFields_withWidths s _ _ hll8 hrl6)
    rw [show s.brPos.toNat + e.len + 3 + used + (1 + rl + ll)
        = s.brPos.toNat + (e.len + 4 + used + rl + ll) by omega,
      show s.brPos.toNat + e.len + 3 + used + 1 + rl = s.brPos.toNat + e.len + 4 + used + rl by omega] at hend
    exact finish_acSymResult_ok hend

end Sys2Proof.Machine
end

section
/-! PROOFS. The bound of every decoded run (O31). -/

namespace Sys2Proof.Machine

/-! ## What a rule's result satisfies -/

section
variable {α β : Type} {P : β → Prop} {m : Engine α} {f : α → Engine β}

/-- From any state whose escape-3 run width is at most 6, a result of the rule satisfies `P`. -/
def Gives {α : Type} (P : α → Prop) (m : Engine α) : Prop :=
  ∀ s a t, s.esc3RL.toNat ≤ 6 → m s = .ok a t → P a

/-- A sequence gives what its second part gives on every result that the first one gives; the run width stays in
range between the two (`Runs.esc3RL`). -/
theorem gives_bind {Q : α → Prop} (hruns : Keeps Runs m) (hm : Gives Q m) (hf : ∀ a, Q a → Gives P (f a)) :
    Gives P (m >>= f) := by
  intro s b u hs h
  obtain ⟨a, t, ha, hb⟩ := bind_eq_ok h
  exact hf a (hm s a t hs ha) t b u (((hruns s).1 a t ha).esc3RL hs) hb

theorem gives_bind_any (hruns : Keeps Runs m) (hf : ∀ a, Gives P (f a)) : Gives P (m >>= f) :=
  gives_bind (Q := fun _ => True) hruns (fun _ _ _ _ _ => trivial) fun a _ => hf a

theorem gives_pure {b : β} (h : P b) : Gives P (pure b) := by
  rintro s a t - ⟨⟩
  exact h

theorem gives_fail (e : ErrCode) : Gives P (fail e) := by
  rintro s a t - ⟨⟩

theorem gives_readBits (n : Nat) : Gives (· < 2 ^ n) (readBits n) := fun s a t _ h => readBits_lt n s a t h

theorem gives_look_esc3RL : Gives (·.toNat ≤ 6) (look State.esc3RL) := by
  rintro s a t hs ⟨⟩
  exact hs

theorem gives_decodeSym {σ : Type} (es : List (VlcEntry σ)) : Gives (· ∈ es) (decodeSym es) := by
  intro s e t _ h
  rw [decodeSym] at h
  split at h
  case h_1 => cases h
  case h_2 hfound =>
    cases h
    exact (codeAt_of_flatEntry hfound).1

end

/-! ## The runs of an AC symbol (R185) -/

/-- A run in 0..63. -/
def RunOk (r : RunLevel) : Prop := r.run ≤ 63

theorem plainSym_runOk {run : Nat} (h : run ≤ 63) (mag : Nat) (last : Bool) : Gives RunOk (plainSym run mag last) :=
  gives_bind_any runs_readBit fun _ => gives_pure h

section
variable {es : List (VlcEntry AcSym)} (hes : ∀ e ∈ es, Config.acSymOk e.sym = true)
include hes

theorem rle_run_le {e : VlcEntry AcSym} (he : e ∈ es) {run mag : Nat} {last : Bool}
    (hsym : e.sym = .rle run mag last) : run ≤ 63 := by
  have hok := hes e he
  rw [hsym] at hok
  simp only [Config.acSymOk, Bool.and_eq_true, decide_eq_true_eq] at hok
  omega

theorem decodeRle_run_le : Gives (fun x => x.1 ≤ 63) (decodeRle es) := by
  refine gives_bind (runs_decodeSym es) (gives_decodeSym es) fun e he => ?_
  split
  case h_1 hsym => exact gives_pure (rle_run_le hes he hsym)
  case h_2 => exact gives_fail _

theorem offsetSym_runOk {adj : Nat → Nat → Bool → Nat × Nat}
    (hadj : ∀ run mag last, run ≤ 63 → (adj run mag last).1 ≤ 63) : Gives RunOk (offsetSym es adj) :=
  gives_bind (runs_decodeRle es) (decodeRle_run_le hes) fun ⟨run, mag, last⟩ hrun =>
    plainSym_runOk (hadj run mag last hrun) _ _

theorem escOf_runOk (b : Bool) {absolute : Engine RunLevel} (h : Gives RunOk absolute) :
    Gives RunOk (escOf es b absolute) := by
  refine gives_bind_any runs_readBit fun b0 => ?_
  split
  · exact offsetSym_runOk hes fun run mag last hrun => hrun
  · refine gives_bind_any runs_readBit fun b1 => ?_
    split
    · exact offsetSym_runOk hes fun run mag last _ => Nat.min_le_right _ 63
    · exact h

theorem acSymOf_runOk {esc : Engine RunLevel} (h : Gives RunOk esc) : Gives RunOk (acSymOf es esc) := by
  refine gives_bind_any runs_needBits fun _ => gives_bind (runs_decodeSym es) (gives_decodeSym es) fun e he => ?_
  cases hsym : e.sym with
  | rle run mag last => exact plainSym_runOk (rle_run_le hes he hsym) mag last
  | esc => exact h

end

/-- Mode 3 reads six bits of run. -/
theorem escAbsVc1_runOk : Gives RunOk escAbsVc1 :=
  gives_bind_any runs_readBit fun _ => gives_bind (runs_readBits 6) (gives_readBits 6) fun _ hrun =>
    gives_bind_any (runs_readBits 8) fun _ => plainSym_runOk (Nat.le_of_lt_succ hrun) _ _

/-- Escape 3 reads as many bits of run as the width in the state says, at most 6. -/
theorem absFields_runOk (last : Bool) : Gives RunOk (absFields last) := by
  refine gives_bind_any (runs_look _) fun ll => gives_bind (runs_look _) gives_look_esc3RL fun rl hrl =>
    gives_bind (runs_readBits _) (gives_readBits _) fun run hrun => gives_bind_any runs_readBit fun neg =>
      gives_bind_any (runs_readBits _) fun mag => gives_pure ?_
  have hpow : 2 ^ rl.toNat ≤ 2 ^ 6 := Nat.pow_le_pow_right (by decide) hrl
  exact Nat.le_of_lt_succ (hrun.trans_le hpow)

theorem escAbsWmv2_runOk : Gives RunOk escAbsWmv2 := by
  refine gives_bind_any runs_readBit fun last => gives_bind_any (runs_look _) fun ll => ?_
  dsimp only
  split
  · exact gives_bind_any runs_esc3Lengths fun _ => absFields_runOk last
  · exact absFields_runOk last

/-- Settles O31: a plain run is the table's, an offset run is capped at 63, an absolute run has at most six bits. -/
theorem runBound : Obligations.RunBound := by
  intro s u t es r htab hrl
  have hes : ∀ e ∈ es, Config.acSymOk e.sym = true := fun e he => acSymOk_of_ac (acTable_eq_some_iff.mp htab) he
  exact ⟨acSymOf_runOk hes (escOf_runOk hes false escAbsVc1_runOk) s r u hrl,
    acSymOf_runOk hes (escOf_runOk hes true escAbsWmv2_runOk) s r u hrl⟩

end Sys2Proof.Machine
end

section
/-! PROOFS. Whole AC blocks (O32), and a block of one plain symbol (O33). -/

namespace Sys2Proof.Machine

/-! ## The loop of a block (R183) -/

/-- A legal scan is not empty (R9, R10). -/
theorem scanTable_length_pos {p : Params} {sc : BitVec 4} {scan : List Nat} (h : scanTable p sc = some scan) :
    0 < scan.length := by
  have hwf := p.ok
  simp only [ParamData.wf, Bool.and_eq_true, List.all_eq_true, and_assoc] at hwf
  obtain ⟨-, -, -, -, -, -, hscans, -⟩ := hwf
  have hmem : some scan ∈ p.raw.scan := List.mem_of_getElem? (Option.join_eq_some_iff.mp h)
  have hok := hscans _ hmem
  simp only [Config.scanOk, Bool.and_eq_true, Bool.or_eq_true, beq_iff_eq] at hok
  omega

section
variable {sym : Engine RunLevel} {scan : List Nat} {s u : State} {idx : Int} {r : RunLevel}

theorem acLoop_unreadable {e : ErrCode} (fuel n : Nat) (hsym : sym s = .error e u) :
    acLoop sym scan (fuel + 1) idx n s = .error e u := by
  rw [acLoop, bind_error hsym]

theorem acLoop_overflow (fuel n : Nat) (hsym : sym s = .ok r u) (hover : (scan.length : Int) ≤ idx + r.run + 1) :
    acLoop sym scan (fuel + 1) idx n s = .error .coefOverflow u := by
  rw [acLoop, bind_ok hsym]
  exact bind_error (if_pos hover)

theorem place_of_lt (hfits : idx + r.run + 1 < scan.length) :
    place scan idx r.run r.level u
      = .ok (idx + r.run + 1) { u with coef := setCoef u.coef (scan.getD (idx + r.run + 1).toNat 0) r.level } :=
  if_neg (Int.not_le.mpr hfits)

/-- A symbol that fits is placed; the block ends there or goes on from the new index. -/
theorem acLoop_placed (fuel n : Nat) (hsym : sym s = .ok r u) (hfits : idx + r.run + 1 < scan.length) :
    acLoop sym scan (fuel + 1) idx n s
      = (if r.last then pure (idx + r.run + 1, n + 1) else acLoop sym scan fuel (idx + r.run + 1) (n + 1) : Engine _)
          (placed u scan (idx + r.run + 1) r) := by
  rw [acLoop, bind_ok hsym, bind_ok (place_of_lt hfits)]
  rfl

end

/-- The fuel lasts from index `idx` to the end of the scan: each symbol raises the index and spends one. -/
def FuelFor (scan : List Nat) (idx : Int) (fuel : Nat) : Prop :=
  idx < scan.length ∧ (scan.length : Int) ≤ idx + fuel

section
variable {sym : Engine RunLevel} {scan : List Nat}

theorem FuelFor.succ {idx : Int} {fuel : Nat} (h : FuelFor scan idx fuel) : ∃ k, fuel = k + 1 :=
  Nat.exists_eq_add_one_of_ne_zero (by obtain ⟨hlt, hle⟩ := h; omega)

theorem FuelFor.next {idx : Int} {k run : Nat} (h : FuelFor scan idx (k + 1)) (hfits : idx + run + 1 < scan.length) :
    FuelFor scan (idx + run + 1) k := by
  obtain ⟨-, hle⟩ := h
  exact ⟨hfits, by omega⟩

/-- The loop completes as `BlockRun` says. -/
theorem acLoop_of_blockRun {s t : State} {idx idx' : Int} {n n' fuel : Nat}
    (h : BlockRun sym scan s idx n t idx' n') (hfuel : FuelFor scan idx fuel) :
    acLoop sym scan fuel idx n s = .ok (idx', n') t := by
  induction h generalizing fuel with
  | last hsym hfits hlast =>
    obtain ⟨k, rfl⟩ := hfuel.succ
    rw [acLoop_placed k _ hsym hfits, if_pos hlast, pure_run]
  | more hsym hfits hlast _ ih =>
    obtain ⟨k, rfl⟩ := hfuel.succ
    rw [acLoop_placed k _ hsym hfits, if_neg (by rw [hlast]; decide), ih (hfuel.next hfits)]

/-- The loop stops as `BlockStop` says. -/
theorem acLoop_of_blockStop {s t : State} {idx : Int} {n fuel : Nat} {e : ErrCode}
    (h : BlockStop sym scan s idx e t) (hfuel : FuelFor scan idx fuel) :
    acLoop sym scan fuel idx n s = .error e t := by
  induction h generalizing fuel n with
  | unreadable hsym =>
    obtain ⟨k, rfl⟩ := hfuel.succ
    exact acLoop_unreadable k n hsym
  | overflow hsym hover =>
    obtain ⟨k, rfl⟩ := hfuel.succ
    exact acLoop_overflow k n hsym hover
  | more hsym hfits hlast _ ih =>
    obtain ⟨k, rfl⟩ := hfuel.succ
    rw [acLoop_placed k _ hsym hfits, if_neg (by rw [hlast]; decide), ih (hfuel.next hfits)]

/-- From every state a block completes or stops, by induction on the fuel that the loop would need. -/
theorem blockRun_or_blockStop {fuel : Nat} {idx : Int} (s : State) (n : Nat) (hfuel : FuelFor scan idx fuel) :
    (∃ t idx' n', BlockRun sym scan s idx n t idx' n') ∨ ∃ e t, BlockStop sym scan s idx e t := by
  induction fuel generalizing s idx n with
  | zero =>
    obtain ⟨k, hk⟩ := hfuel.succ
    cases hk
  | succ k ih =>
    cases hsym : sym s with
    | error e u => exact .inr ⟨e, u, .unreadable hsym⟩
    | ok r u =>
      by_cases hfits : idx + r.run + 1 < scan.length
      · cases hlast : r.last with
        | true => exact .inl ⟨_, _, _, .last hsym hfits hlast⟩
        | false =>
          rcases ih (placed u scan (idx + r.run + 1) r) (n + 1) (hfuel.next hfits) with
            ⟨t, idx', n', hrun⟩ | ⟨e, t, hstop⟩
          · exact .inl ⟨t, idx', n', .more hsym hfits hlast hrun⟩
          · exact .inr ⟨e, t, .more hsym hfits hlast hstop⟩
      · exact .inr ⟨_, u, .overflow hsym (Int.not_lt.mp hfits)⟩

/-- The last index lies in the scan, and the index rises by at least 1 per symbol. -/
theorem blockRun_bounds {s t : State} {idx idx' : Int} {n n' : Nat} (h : BlockRun sym scan s idx n t idx' n') :
    idx' < scan.length ∧ (n' : Int) - n ≤ idx' - idx := by
  induction h with
  | last _ hfits _ => exact ⟨hfits, by omega⟩
  | more _ _ _ _ ih =>
    obtain ⟨hlt, hcount⟩ := ih
    exact ⟨hlt, by omega⟩

/-- An error in a block leaves the error record to the `raise`. -/
theorem blockStop_err {s t : State} {idx : Int} {e : ErrCode} (hsym : Keeps Runs sym)
    (h : BlockStop sym scan s idx e t) : t.err = s.err := by
  induction h with
  | unreadable hread => exact ((hsym _).2 _ _ hread).err
  | overflow hread _ => exact ((hsym _).1 _ _ hread).err
  | more hread _ _ _ ih => exact ih.trans ((hsym _).1 _ _ hread).err

end

/-! ## The block commands (R184) -/

theorem startIdx_bounds (intra : Bool) : -1 ≤ startIdx intra ∧ startIdx intra ≤ 0 := by cases intra <;> decide

theorem fuelFor_start {scan : List Nat} (h : 0 < scan.length) (intra : Bool) :
    FuelFor scan (startIdx intra) (scan.length + 1) := by
  obtain ⟨hlow, hhigh⟩ := startIdx_bounds intra
  exact ⟨by omega, by omega⟩

section
variable {s : State} {t : BitVec 8} {sc : BitVec 4} {intra : Bool} {es : List (VlcEntry AcSym)} {scan : List Nat}

/-- `sym` is the symbol that block command `i` reads. -/
def BlockOf (t : BitVec 8) (sc : BitVec 4) (intra : Bool) (es : List (VlcEntry AcSym)) (i : Instr)
    (sym : Engine RunLevel) : Prop :=
  (i = .acBlockVc1 t sc intra ∧ sym = acSymVc1 es) ∨ (i = .acBlockWmv2 t sc intra ∧ sym = acSymWmv2 es)

theorem BlockOf.exec_eq {i : Instr} {sym : Engine RunLevel} (h : BlockOf t sc intra es i sym) (herr : s.err = false)
    (htab : acTable s.params t = some es) (hscan : scanTable s.params sc = some scan) :
    exec i s = finish (acBlockRule sym scan intra) s := by
  rcases h with ⟨rfl, rfl⟩ | ⟨rfl, rfl⟩
  · rw [exec, execAcBlockVc1, htab, hscan, Option.bind_some, Option.map_some, command_some herr]
  · rw [exec, execAcBlockWmv2, htab, hscan, Option.bind_some, Option.map_some, command_some herr]

theorem BlockOf.runs {i : Instr} {sym : Engine RunLevel} (h : BlockOf t sc intra es i sym) : Keeps Runs sym := by
  rcases h with ⟨-, rfl⟩ | ⟨-, rfl⟩
  · exact runs_acSymVc1 es
  · exact runs_acSymWmv2 es

theorem BlockOf.sym_rle {i : Instr} {sym : Engine RunLevel} (h : BlockOf t sc intra es i sym)
    (htab : acTable s.params t = some es) (hbits : s.brPos < s.brLen) {e : VlcEntry AcSym}
    (hcode : CodeAt s es s.brPos.toNat e) {run mag : Nat} {last : Bool} (hsym : e.sym = .rle run mag last) :
    sym s = .ok ⟨run, signAt s (s.brPos.toNat + e.len) mag, last⟩ { s with brPos := advanced s (e.len + 1) } := by
  rcases h with ⟨-, rfl⟩ | ⟨-, rfl⟩
  · exact acSymOf_rle htab hbits hcode hsym
  · exact acSymOf_rle htab hbits hcode hsym

end

/-- Settles O32: the loop follows `BlockRun` and `BlockStop` (`acLoop_of_blockRun`, `acLoop_of_blockStop`), and its
fuel lasts. -/
theorem acBlock : Obligations.AcBlock := by
  intro s t sc intra es scan herr htab hscan start i sym hi
  have hblock : BlockOf t sc intra es i sym := hi
  have hfuel : FuelFor scan start (scan.length + 1) := fuelFor_start (scanTable_length_pos hscan) intra
  rw [hblock.exec_eq herr htab hscan]
  refine ⟨fun u idx n hrun => ⟨?completes, ?bounds⟩, fun e u hstop => ?stops, blockRun_or_blockStop s 0 hfuel⟩
  case completes => exact finish_ok (bind_ok (acLoop_of_blockRun hrun hfuel))
  case bounds =>
    obtain ⟨hlt, hcount⟩ := blockRun_bounds hrun
    have hstart : -1 ≤ start := (startIdx_bounds intra).1
    exact ⟨hlt, by omega⟩
  case stops =>
    have herr' : u.err = false := (blockStop_err hblock.runs hstop).trans herr
    exact finish_withError herr' (bind_error (acLoop_of_blockStop hstop hfuel))

/-- The index of the first symbol of a block (R171, R172). -/
theorem startIdx_add (intra : Bool) (run : Nat) :
    startIdx intra + run + 1 = ((if intra = true then run + 1 else run : Nat) : Int) := by
  cases intra <;> simp [startIdx]

/-- Settles O33 from O32: the block is one `BlockRun.last` or one `BlockStop.overflow`. -/
theorem acBlockOneSymbol : Obligations.AcBlockOneSymbol := by
  intro s t sc intra es scan e run mag herr htab hscan hbits hcode hsym k v i hi
  obtain ⟨sym, hblock⟩ : ∃ sym, BlockOf t sc intra es i sym :=
    hi.elim (fun h => ⟨_, .inl ⟨h, rfl⟩⟩) fun h => ⟨_, .inr ⟨h, rfl⟩⟩
  obtain ⟨hcompletes, hstops, -⟩ := acBlock s t sc intra es scan herr htab hscan i sym hblock
  have hread := hblock.sym_rle htab hbits hcode hsym
  have hk : startIdx intra + run + 1 = (k : Int) := startIdx_add intra run
  refine ⟨fun hlt => ?placed, fun hle => ?overflow⟩
  case placed =>
    have hfits : startIdx intra + run + 1 < scan.length := by rw [hk]; exact Int.ofNat_lt.mpr hlt
    have hrun := (hcompletes _ _ _ (.last hread hfits rfl)).1
    have hdone : exec i s = .next { placed { s with brPos := advanced s (e.len + 1) } scan (startIdx intra + run + 1)
        ⟨run, signAt s (s.brPos.toNat + e.len) mag, true⟩ with
          res0 := BitVec.ofInt 32 (startIdx intra + run + 1), res1 := 1 } := hrun
    rw [hk, BitVec.ofInt_natCast] at hdone
    rw [hdone, placed, Int.toNat_natCast, List.getD_eq_getElem _ _ hlt]
  case overflow =>
    have hover : (scan.length : Int) ≤ startIdx intra + run + 1 := by rw [hk]; exact Int.ofNat_le.mpr hle
    exact hstops _ _ (.overflow hread hover)

end Sys2Proof.Machine
end

section
/-! PROOFS. The inverse quantizers of VC-1 (O36) and WMV2 (O37), and the commands that load or read registers
(O35). -/

namespace Sys2Proof.Machine

/-- A command whose rule is one change of the state, where its operands are legal (R102). -/
theorem command_legal_update {s : State} {legal : Bool} (herr : s.err = false) (hlegal : legal = true)
    (f : State → State) : command (legalWhen legal (update f)) s = .next (f s) := by
  rw [hlegal, legalWhen_true, command_update herr]

/-! ## A block whose DC may have a rule of its own (R203, R205) -/

section
variable {intra : Bool} {k : Nat} (hk : k < 64) (dc : Int) (ac : Nat → Int)

theorem buildCoef_intra_dc (hintra : intra = true) (hdc : k = 0) :
    (buildCoef fun i => if intra ∧ i = 0 then dc else ac i)[k] = i32 dc := by
  rw [buildCoef_getElem, if_pos ⟨hintra, hdc⟩]

theorem buildCoef_intra_ac (h : intra = false ∨ k ≠ 0) :
    (buildCoef fun i => if intra ∧ i = 0 then dc else ac i)[k] = i32 (ac k) := by
  rw [buildCoef_getElem, if_neg fun ⟨hintra, hdc⟩ => h.elim (by simp [hintra]) (· hdc)]

end

/-! ## VC-1 (R201 to R203) -/

section
variable {s : State}

theorem overrideOn_iff : overrideOn s = true ↔ cfgDquant s ≠ 0 ∧ s.mqValid = true := by
  simp [overrideOn]

theorem qEff_of_override (h : overrideOn s = true) : qEff s = s.mquant.toNat := if_pos h

theorem qEff_of_no_override (h : ¬overrideOn s = true) : qEff s = cfgPquant s := if_neg h

theorem hqEff_of_override (h : overrideOn s = true) : hqEff s = false := if_pos h

theorem hqEff_of_no_override (h : ¬overrideOn s = true) : hqEff s = cfgHalfqp s := if_neg h

/-- What a half step adds to the magnitude of a uniform AC level (R202). -/
def halfStep (q : Nat) (hq : Bool) : Int := if hq then (q : Int) else 0

theorem dqAcVc1_eq_clamp (l : Int) (q : Nat) (hq : Bool) :
    dqAcVc1 s l q hq = clamp (l.sign *
      (if cfgQmode s = false then 2 * q * |l| + q + halfStep q hq
       else stepAt s.params.raw.nuStep q * |l| + q)) (-2048) 2047 := by
  rw [mul_ite, dqAcVc1, halfStep, Int.natCast_natAbs]

/-- The clamped range fits in 32 bits. -/
theorem toInt_i32_clamp (v : Int) : (i32 (clamp v (-2048) 2047)).toInt = min 2047 (max (-2048) v) := by
  rw [toInt_i32] <;> unfold clamp <;> omega

theorem exec_dqVc1 {b : BitVec 3} (herr : s.err = false) (hb : b.toNat ≤ 5) (intra : Bool) :
    exec (.dqVc1 b intra) s = .next { s with coef := dqVc1Coef s intra } :=
  command_legal_update herr (decide_eq_true hb) _

end

/-- Settles O36. -/
theorem dqVc1 : Obligations.DqVc1 := by
  intro s b intra herr hb override
  refine ⟨qEff s, halfStep (qEff s) (hqEff s), dqVc1Coef s intra, fun hon => ?on, fun hoff => ?off,
    exec_dqVc1 herr hb intra, fun k => ⟨fun hintra hdc => ?dc, fun hac => ?ac⟩⟩
  case on =>
    have h := overrideOn_iff.mpr hon
    exact ⟨qEff_of_override h, by rw [hqEff_of_override h]; rfl⟩
  case off =>
    have h := mt overrideOn_iff.mp hoff
    exact ⟨qEff_of_no_override h, by rw [hqEff_of_no_override h]; rfl⟩
  case dc =>
    have hl : coefAt s.coef 0 = (s.coef[k]).toInt := hdc ▸ coefAt_of_lt s.coef k.isLt
    exact hl ▸ buildCoef_intra_dc k.isLt _ _ hintra hdc
  case ac =>
    have hw : (dqVc1Coef s intra)[k] = i32 (dqAcVc1 s (coefAt s.coef k) (qEff s) (hqEff s)) :=
      buildCoef_intra_ac k.isLt _ _ hac
    rw [hw, coefAt_of_lt s.coef k.isLt, dqAcVc1_eq_clamp, toInt_i32_clamp]
    rfl

/-! ## WMV2 (R204, R205) -/

/-- `n | 1` is the odd number of the pair that `n` belongs to. -/
theorem or_one_eq (n : Nat) : n ||| 1 = 2 * (n / 2) + 1 := by
  have hdiv : (n ||| 1) / 2 = n / 2 := by simp [Nat.or_div_two]
  have hmod : (n ||| 1) % 2 = 1 := by simp
  omega

section
variable {l : Int} (q : Nat)

/-- The addend is `(q - 1) | 1` of two's complement, -1 at quantizer 0 (log entry 27). -/
theorem wmv2Qadd_eq : wmv2Qadd q = if q = 0 then -1 else ((q - 1 ||| 1 : Nat) : Int) := by
  rw [wmv2Qadd, or_one_eq]
  split_ifs <;> omega

theorem dqWmv2_zero : dqWmv2 0 q = 0 := rfl

theorem dqWmv2_pos (h : 0 < l) : dqWmv2 l q = 2 * q * l + wmv2Qadd q := by
  rw [dqWmv2, if_neg h.ne', Int.sign_eq_one_of_pos h]
  ring

theorem dqWmv2_neg (h : l < 0) : dqWmv2 l q = 2 * q * l - wmv2Qadd q := by
  rw [dqWmv2, if_neg h.ne, Int.sign_eq_neg_one_of_neg h]
  ring

theorem exec_dqWmv2 {s : State} {b : BitVec 3} (herr : s.err = false) (hb : b.toNat ≤ 5) (intra : Bool) :
    exec (.dqWmv2 b intra) s = .next { s with coef := dqWmv2Coef s b.toNat intra } :=
  command_legal_update herr (decide_eq_true hb) _

end

/-- Settles O37, by the sign of the level. -/
theorem dqWmv2_holds : Obligations.DqWmv2 := by
  intro s b intra herr hb q qadd scale
  have hqadd : wmv2Qadd q = qadd := wmv2Qadd_eq q
  refine ⟨dqWmv2Coef s b.toNat intra, exec_dqWmv2 herr hb intra, fun k =>
    ⟨fun hintra hdc => ?dc, fun hac => ?ac⟩⟩
  case dc =>
    have hl : coefAt s.coef 0 = (s.coef[k]).toInt := hdc ▸ coefAt_of_lt s.coef k.isLt
    exact hl ▸ buildCoef_intra_dc k.isLt _ _ hintra hdc
  case ac =>
    have hw : (dqWmv2Coef s b.toNat intra)[k] = i32 (dqWmv2 (s.coef[k]).toInt q) :=
      (buildCoef_intra_ac k.isLt _ _ hac).trans (by rw [coefAt_of_lt s.coef k.isLt]; rfl)
    refine ⟨fun hzero => ?_, fun hpos => ?_, fun hneg => ?_⟩
    · rw [hw, hzero, dqWmv2_zero]; rfl
    · rw [hw, dqWmv2_pos q hpos, hqadd]; rfl
    · rw [hw, dqWmv2_neg q hneg, hqadd]; rfl

/-! ## Configuration registers (R350, R351) -/

section
variable (s : State)

theorem exec_nop : exec .nop s = .next s := rfl

theorem exec_wrcfg (i : BitVec 5) (v : BitVec 16) :
    exec (.wrcfg i v) s = .next { s with cfg := s.cfg.setIfInBounds i.toNat v } := rfl

theorem exec_rdcfg {i : BitVec 5} {k : Fin 32} (hk : k.val = i.toNat) :
    exec (.rdcfg i) s = .next { s with res0 := (s.cfg[k]).setWidth 32 } := by
  have hread : s.cfg[i.toNat]?.getD 0 = s.cfg[k] := by simp [← hk]
  simp only [exec, execRdcfg, always_some, finish_ok (update_run _ s), hread, n32_setWidth]

end

/-! ## Position, quantizer and vectors (R200, R250, R261, R262) -/

section
variable {s : State} (herr : s.err = false)
include herr

theorem exec_setMb {x y : BitVec 12} (hx : x < s.mbw) (hy : y < s.mbh) :
    exec (.setMb x y) s = .next { s with mbx := x, mby := y, mqValid := false } :=
  command_legal_update herr (Bool.and_eq_true_iff.mpr ⟨decide_eq_true hx, decide_eq_true hy⟩) _

theorem exec_setMquant {q : BitVec 5} (hq : q ≠ 0) :
    exec (.setMquant q) s = .next { s with mquant := q, mqValid := true } :=
  command_legal_update herr (decide_eq_true (toNat_pos_of_ne_zero hq)) _

theorem exec_setMv_forward (addp : Bool) (x y : BitVec 11) :
    exec (.setMv false addp x y) s = .next { s with mvf := setMvOf s addp x y } := command_update herr _

theorem exec_setMv_backward (addp : Bool) (x y : BitVec 11) :
    exec (.setMv true addp x y) s = .next { s with mvbk := setMvOf s addp x y } := command_update herr _

theorem exec_mvstore (hsize : s.mbw ≠ 0) (skipped : Bool) :
    exec (.mvstore skipped) s = .next { s with
      mvbuf := s.mvbuf.write (mbKey s.mbx.toNat s.mby.toNat) ⟨s.mvf.x, s.mvf.y, skipped⟩ } :=
  (command_some herr).trans (finish_ok (bind_ok (needPicture_ok hsize)))

end

/-- The sum of a register and an operand wraps in 32 bits (R11, R261). -/
theorem i32_toInt_add_toInt {w : Nat} (a : Word) (x : BitVec w) : i32 (a.toInt + x.toInt) = a + x.signExtend 32 := by
  rw [i32, BitVec.ofInt_add, BitVec.ofInt_toInt, BitVec.signExtend]

theorem setMvOf_zero (s : State) (x y : BitVec 11) :
    setMvOf s false x y = ⟨x.signExtend 32, y.signExtend 32⟩ := by
  simp [setMvOf]

theorem setMvOf_pmv (s : State) (x y : BitVec 11) :
    setMvOf s true x y = ⟨s.pmv.x + x.signExtend 32, s.pmv.y + y.signExtend 32⟩ := by
  simp [setMvOf, i32_toInt_add_toInt]

theorem Grid.setAt_write {α : Type} [DecidableEq α] (g : Grid α) (k : Nat) (v : α) : g.SetAt k v (g.write k v) :=
  ⟨by simp, fun j hj => by simp [hj]⟩

/-- Settles O35, one rule per command. -/
theorem registerCommands : Obligations.RegisterCommands := fun s =>
  ⟨exec_nop s,
    fun i v => ⟨_, exec_wrcfg s i v, fun k => by simp [Vector.getElem_setIfInBounds, eq_comm]⟩,
    fun _ _ hk => exec_rdcfg s hk,
    fun herr => ⟨fun _ _ => exec_setMb herr, fun _ => exec_setMquant herr,
      fun x y => by
        simp only [exec_setMv_forward herr, exec_setMv_backward herr, setMvOf_zero, setMvOf_pmv, and_self],
      fun skipped hsize => ⟨_, exec_mvstore herr hsize skipped, Grid.setAt_write _ _ _⟩⟩⟩

end Sys2Proof.Machine
end

section
/-! PROOFS. The VC-1 inverse transforms, region by region (O38). -/

namespace Sys2Proof.Machine

/-! ## The regions of a transform (R223) -/

/-- The first row and column of the region that index `k` of `COEF` lies in. -/
def regionOf (wd ht k : Nat) : Nat × Nat := (k / 8 / ht * ht, k % 8 / wd * wd)

/-- `(r0, c0)` is the origin of one of the `wd`-wide, `ht`-tall regions that `COEF` is cut into. -/
abbrev IsRegion (wd ht r0 c0 : Nat) : Prop := (ht ∣ r0 ∧ wd ∣ c0) ∧ r0 + ht ≤ 8 ∧ c0 + wd ≤ 8

/-- The multiple of `n` that `a` is rounded down to. -/
theorem div_mul_eq_iff {n a q : Nat} (hn : 0 < n) (hq : n ∣ q) : a / n * n = q ↔ q ≤ a ∧ a < q + n := by
  obtain ⟨m, rfl⟩ := hq
  rw [Nat.mul_comm n m, Nat.mul_left_inj hn.ne', Nat.div_eq_iff hn]
  omega

section
variable {wd ht r0 c0 : Nat} (hwd : 0 < wd) (hht : 0 < ht) (hreg : IsRegion wd ht r0 c0)
include hwd hht hreg

theorem regionOf_eq_iff (k : Nat) :
    regionOf wd ht k = (r0, c0) ↔ r0 ≤ k / 8 ∧ k / 8 < r0 + ht ∧ c0 ≤ k % 8 ∧ k % 8 < c0 + wd := by
  obtain ⟨⟨hrow, hcol⟩, -⟩ := hreg
  rw [regionOf, Prod.mk.injEq, div_mul_eq_iff hht hrow, div_mul_eq_iff hwd hcol, and_assoc]

theorem regionOf_index {r j : Nat} (hr : r < ht) (hj : j < wd) : regionOf wd ht (8 * (r0 + r) + c0 + j) = (r0, c0) := by
  have ⟨_, _, hfit⟩ := hreg
  rw [regionOf_eq_iff hwd hht hreg]
  omega

end

/-! ## Transforming one region after another (R222) -/

/-- The column pass at index `k`, of the region `k` lies in. -/
def transformedAt (wd ht : Nat) (u : Vector Word 64) (k : Nat) : Int :=
  colPass u (regionOf wd ht k).1 (regionOf wd ht k).2 wd ht (k / 8 % ht) (k % 8 % wd)

/-- `COEF` with the regions of the list transformed, each from the coefficients `u` before the command. -/
def transformedOn (wd ht : Nat) (done : List (Nat × Nat)) (u : Vector Word 64) : Vector Word 64 :=
  buildCoef fun k => if regionOf wd ht k ∈ done then transformedAt wd ht u k else coefAt u k

section
variable {wd ht : Nat} {done : List (Nat × Nat)} {u : Vector Word 64} {k : Nat}

theorem transformedOn_getElem_of_mem (hk : k < 64) (h : regionOf wd ht k ∈ done) :
    (transformedOn wd ht done u)[k] = i32 (transformedAt wd ht u k) := by
  rw [transformedOn, buildCoef_getElem, if_pos h]

theorem transformedOn_getElem_of_not_mem (hk : k < 64) (h : regionOf wd ht k ∉ done) :
    (transformedOn wd ht done u)[k] = u[k] := by
  rw [transformedOn, buildCoef_getElem, if_neg h, i32_coefAt]

theorem transformedOn_nil (wd ht : Nat) (u : Vector Word 64) : transformedOn wd ht [] u = u := by
  ext1 k hk
  exact transformedOn_getElem_of_not_mem hk List.not_mem_nil

end

/-- The column pass over a region as the sums of R222. -/
theorem colPass_eq_sum (u : Vector Word 64) (r0 c0 wd ht m n : Nat) :
    colPass u r0 c0 wd ht m n
      = (∑ j ∈ Finset.range ht, tap ht j m
          * (i32 (∑ i ∈ Finset.range wd, tap wd i n * coefAt u (8 * (r0 + j) + c0 + i))).toInt + 64) / 2 ^ 7 := by
  simp only [colPass_eq, rowPass_eq, sumTo_eq_sum]

/-- A region's transform reads no coefficient outside the region. -/
theorem colPass_congr {u v : Vector Word 64} {r0 c0 wd ht : Nat}
    (h : ∀ j < ht, ∀ i < wd, coefAt v (8 * (r0 + j) + c0 + i) = coefAt u (8 * (r0 + j) + c0 + i)) (m n : Nat) :
    colPass v r0 c0 wd ht m n = colPass u r0 c0 wd ht m n := by
  have hrow : ∀ j < ht, rowPass v r0 c0 wd j n = rowPass u r0 c0 wd j n := fun j hj => by
    rw [rowPass_eq, rowPass_eq, sumTo_eq_sum, sumTo_eq_sum,
      Finset.sum_congr rfl fun i hi => by rw [h j hj i (Finset.mem_range.mp hi)]]
  rw [colPass_eq, colPass_eq, sumTo_eq_sum, sumTo_eq_sum,
    Finset.sum_congr rfl fun j hj => by rw [hrow j (Finset.mem_range.mp hj)]]

/-- Transforming one more region, from coefficients that the regions before it have left alone. -/
theorem xform_transformedOn {wd ht r0 c0 : Nat} {done : List (Nat × Nat)} (hwd : 0 < wd) (hht : 0 < ht)
    (hreg : IsRegion wd ht r0 c0) (hnew : (r0, c0) ∉ done) (u : Vector Word 64) :
    xform r0 c0 wd ht (transformedOn wd ht done u) = transformedOn wd ht ((r0, c0) :: done) u := by
  have hsame : ∀ j < ht, ∀ i < wd,
      coefAt (transformedOn wd ht done u) (8 * (r0 + j) + c0 + i) = coefAt u (8 * (r0 + j) + c0 + i) :=
    fun j hj i hi => by
      have hlt : 8 * (r0 + j) + c0 + i < 64 := by
        obtain ⟨-, hrows, hcols⟩ := hreg
        omega
      rw [coefAt_of_lt _ hlt, coefAt_of_lt _ hlt,
        transformedOn_getElem_of_not_mem hlt (by rwa [regionOf_index hwd hht hreg hj hi])]
  ext1 k hk
  rw [xform_getElem]
  by_cases hin : regionOf wd ht k = (r0, c0)
  · obtain ⟨hrow, hcol⟩ := Prod.mk.inj hin
    have hm : k / 8 - r0 = k / 8 % ht := by rw [← hrow, ← Nat.mod_eq_sub_div_mul]
    have hn : k % 8 - c0 = k % 8 % wd := by rw [← hcol, ← Nat.mod_eq_sub_div_mul]
    rw [if_pos ((regionOf_eq_iff hwd hht hreg k).mp hin), colPass_congr hsame,
      transformedOn_getElem_of_mem hk (hin ▸ List.mem_cons_self), transformedAt, hin, hm, hn]
  · rw [if_neg (mt (regionOf_eq_iff hwd hht hreg k).mpr hin)]
    by_cases hmem : regionOf wd ht k ∈ done
    · rw [transformedOn_getElem_of_mem hk hmem, transformedOn_getElem_of_mem hk (List.mem_cons_of_mem _ hmem)]
    · rw [transformedOn_getElem_of_not_mem hk hmem,
        transformedOn_getElem_of_not_mem hk (List.not_mem_cons_of_ne_of_not_mem hin hmem)]

/-- The regions of the list transformed one after another, the last one first. -/
def xforms (wd ht : Nat) (regions : List (Nat × Nat)) (u : Vector Word 64) : Vector Word 64 :=
  regions.foldr (fun o v => xform o.1 o.2 wd ht v) u

theorem xforms_eq_transformedOn {wd ht : Nat} (hwd : 0 < wd) (hht : 0 < ht) {regions : List (Nat × Nat)}
    (hreg : ∀ o ∈ regions, IsRegion wd ht o.1 o.2) (hnodup : regions.Nodup) (u : Vector Word 64) :
    xforms wd ht regions u = transformedOn wd ht regions u := by
  induction regions with
  | nil => exact (transformedOn_nil wd ht u).symm
  | cons o rest ih =>
    obtain ⟨ho, hrest⟩ := List.forall_mem_cons.mp hreg
    obtain ⟨hnew, hnodup⟩ := List.nodup_cons.mp hnodup
    calc xforms wd ht (o :: rest) u
      _ = xform o.1 o.2 wd ht (xforms wd ht rest u) := rfl
      _ = xform o.1 o.2 wd ht (transformedOn wd ht rest u) := by rw [ih hrest hnodup]
      _ = transformedOn wd ht (o :: rest) u := xform_transformedOn hwd hht ho hnew u

/-! ## The seven commands (R224 to R227) -/

/-- `f` transforms every region of `COEF` from the coefficients it held before. -/
def TransformsRegions (wd ht : Nat) (f : Vector Word 64 → Vector Word 64) : Prop :=
  ∀ (u : Vector Word 64) (k : Nat) (hk : k < 64), (f u)[k] = i32 (transformedAt wd ht u k)

theorem xforms_transformsRegions {wd ht : Nat} (hwd : 0 < wd) (hht : 0 < ht) {regions : List (Nat × Nat)}
    (hreg : ∀ o ∈ regions, IsRegion wd ht o.1 o.2) (hnodup : regions.Nodup)
    (hall : ∀ k < 64, regionOf wd ht k ∈ regions) : TransformsRegions wd ht (xforms wd ht regions) := by
  intro u k hk
  rw [xforms_eq_transformedOn hwd hht hreg hnodup, transformedOn_getElem_of_mem hk (hall k hk)]

theorem idct8x8Of_transformsRegions : TransformsRegions 8 8 idct8x8Of :=
  xforms_transformsRegions (regions := [(0, 0)]) (by decide) (by decide) (by decide) (by decide) (by decide)

theorem idct8x4Of_transformsRegions : TransformsRegions 8 4 idct8x4Of :=
  xforms_transformsRegions (regions := [(4, 0), (0, 0)]) (by decide) (by decide) (by decide) (by decide) (by decide)

theorem idct4x8Of_transformsRegions : TransformsRegions 4 8 idct4x8Of :=
  xforms_transformsRegions (regions := [(0, 4), (0, 0)]) (by decide) (by decide) (by decide) (by decide) (by decide)

theorem idct4x4Of_transformsRegions : TransformsRegions 4 4 idct4x4Of :=
  xforms_transformsRegions (regions := [(4, 4), (4, 0), (0, 4), (0, 0)]) (by decide) (by decide) (by decide)
    (by decide) (by decide)

/-- Settles O38: each command transforms `COEF` region by region, and a region's transform reads only that region. The
entries written out in the statement are those of `tap`, by unfolding. -/
theorem transforms : Obligations.Transforms := by
  intro s i wd ht herr hi
  obtain ⟨f, hexec, hf⟩ : ∃ f, exec i s = transform f s ∧ TransformsRegions wd ht f := by
    simp only [List.mem_cons, List.not_mem_nil, or_false, Prod.mk.injEq] at hi
    rcases hi with ⟨rfl, rfl, rfl⟩ | ⟨rfl, rfl, rfl⟩ | ⟨rfl, rfl, rfl⟩ | ⟨rfl, rfl, rfl⟩ | ⟨rfl, rfl, rfl⟩
      | ⟨rfl, rfl, rfl⟩ | ⟨rfl, rfl, rfl⟩
    · exact ⟨_, rfl, idct8x8Of_transformsRegions⟩
    · exact ⟨_, rfl, idct8x4Of_transformsRegions⟩
    · exact ⟨_, rfl, idct8x4Of_transformsRegions⟩
    · exact ⟨_, rfl, idct4x8Of_transformsRegions⟩
    · exact ⟨_, rfl, idct4x8Of_transformsRegions⟩
    · exact ⟨_, rfl, idct4x4Of_transformsRegions⟩
    · exact ⟨_, rfl, idct4x4Of_transformsRegions⟩
  exact ⟨f s.coef, hexec.trans (transform_run herr f), fun k =>
    (hf s.coef k k.isLt).trans (congrArg i32 (colPass_eq_sum s.coef _ _ wd ht _ _))⟩

end Sys2Proof.Machine
end

section
/-! PROOFS. The pixels that `BLK_PUT` and `BLK_ADD` write (O40), and what the commands that write pixels or predict
need (O41). -/

namespace Sys2Proof.Machine

/-! ## Preconditions (R229, R293, R295, R342) -/

/-- With no error recorded a command with legal operands runs its rule (R102). -/
theorem command_legal {s : State} {legal : Bool} (herr : s.err = false) (hlegal : legal = true) (m : Engine Unit) :
    command (legalWhen legal m) s = finish m s := by
  rw [hlegal, legalWhen_true, command_some herr]

section
variable {i : Instr} (hwf : i.wf = true)
include hwf

/-- A command that writes pixels is a pixel command. -/
theorem exec_of_writesPixels (hpix : writesPixels i = true) :
    ∃ rule, ∀ s, s.err = false → exec i s = finish (pixelCommand rule) s := by
  cases i with
  | blkPut _ | blkAdd _ => exact ⟨_, fun _ herr => command_legal herr hwf _⟩
  | mcBilin _ | mcMspel _ | mcCommit _ => exact ⟨_, fun _ herr => command_some herr⟩
  | _ => cases hpix

/-- A command that needs a picture size asks for it first. -/
theorem exec_of_needsPicture (hneeds : needsPicture i = true) :
    ∃ m : Engine Unit, ∀ s, s.err = false → exec i s = finish (needPicture >>= fun _ => m) s := by
  cases i with
  | dcpredVc1 _ | dcpredWmv2 _ | predStore _ | acpred _ => exact ⟨_, fun _ herr => command_legal herr hwf _⟩
  | cbppred _ _ | mvpred | mvstore _ => exact ⟨_, fun _ herr => command_some herr⟩
  | _ => cases hneeds

end

section
variable {s : State} {rule : Frame → Engine Unit}

/-- In an open frame without `CUR` a pixel command raises `E_SEQ` (log entry 9). -/
theorem pixelCommand_opened_none (h : s.fstate = .opened) (hc : s.cur = none) :
    pixelCommand rule s = .error .seq s := by
  simp [pixelCommand, h, hc]

/-- A rule that raises `E_SEQ` on every frame makes a pixel command of an open frame raise it, with `CUR` or
without. -/
theorem pixelCommand_opened_error (h : s.fstate = .opened) (hrule : ∀ f, rule f s = .error .seq s) :
    pixelCommand rule s = .error .seq s := by
  cases hc : s.cur with
  | none => exact pixelCommand_opened_none h hc
  | some f => exact (pixelCommand_opened h hc).trans (hrule f)

/-- `MC_BILIN 0` has no reference without `WREF0` (R293). -/
theorem mcBilinRule_forward_none (h : s.wref0 = none) : mcBilinRule false s = .error .seq s := by
  simp [mcBilinRule, h]

/-- `MC_BILIN 1` has no reference without `WREF1` (R293). -/
theorem mcBilinRule_backward_none (h : s.wref1 = none) : mcBilinRule true s = .error .seq s := by
  simp [mcBilinRule, h]

/-- `MC_MSPEL` has no reference without `WREF0` (R295). -/
theorem mcMspelRule_none (h : s.wref0 = none) (hshift : Bool) : mcMspelRule hshift s = .error .seq s := by
  simp [mcMspelRule, h]

end

/-- Settles O41. -/
theorem preconditions : Obligations.Preconditions := by
  intro i s herr hwf
  have hseq {m : Engine Unit} (h : m s = .error .seq s) : finish m s = .next (withError 7 s) :=
    finish_withError herr h
  refine ⟨fun k hpix hsup => ?suppressed, fun hpix hidle => ?idle, fun hpix hopen hcur => ?noCur,
    fun hi hopen href => ?noForward, fun hi hopen href => ?noBackward, fun hneeds hsize => ?noPicture⟩
  case suppressed =>
    obtain ⟨rule, hexec⟩ := exec_of_writesPixels hwf hpix
    exact (hexec s herr).trans (finish_ok (pixelCommand_suppressed hsup))
  case idle =>
    obtain ⟨rule, hexec⟩ := exec_of_writesPixels hwf hpix
    exact (hexec s herr).trans (hseq (pixelCommand_idle hidle))
  case noCur =>
    obtain ⟨rule, hexec⟩ := exec_of_writesPixels hwf hpix
    exact (hexec s herr).trans (hseq (pixelCommand_opened_none hopen hcur))
  case noForward =>
    rcases hi with rfl | ⟨hshift, rfl⟩
    · exact (command_some herr).trans
        (hseq (pixelCommand_opened_error hopen fun _ => mcBilinRule_forward_none href))
    · exact (command_some herr).trans
        (hseq (pixelCommand_opened_error hopen fun _ => mcMspelRule_none href hshift))
  case noBackward =>
    subst hi
    exact (command_some herr).trans
      (hseq (pixelCommand_opened_error hopen fun _ => mcBilinRule_backward_none href))
  case noPicture =>
    obtain ⟨m, hexec⟩ := exec_of_needsPicture hwf hneeds
    exact (hexec s herr).trans (hseq (bind_error (needPicture_error hsize)))

/-! ## The samples of a block (R229, R251) -/

theorem originOf_eq (mx my b : Nat) : originOf mx my b = (blockPlane b, blockX mx b, blockY my b) := by
  match b with
  | 0 | 1 | 2 | 3 | 4 => rfl
  | b + 5 => simp [originOf, blockPlane, blockX, blockY]

theorem inBlock_iff {mx my b : Nat} {p : PlaneId} {x y : Nat} :
    inBlock mx my b p x y = true ↔ p = blockPlane b ∧ blockX mx b ≤ x ∧ x < blockX mx b + 8
      ∧ blockY my b ≤ y ∧ y < blockY my b + 8 := by
  simp [inBlock, and_assoc]

section
variable {s : State} {f : Frame} {b : Nat} {p : PlaneId} {x y : Nat} (hx : x < f.width p) (hy : y < f.height p)
  (g : Nat → Byte → Byte)
include hx hy

theorem putBlock_pix_inside (h : inBlock s.mbx.toNat s.mby.toNat b p x y = true) :
    (putBlock s b f g).pix p x y
      = g (8 * (y - blockY s.mby.toNat b) + (x - blockX s.mbx.toNat b)) (f.pix p x y) :=
  (Frame.pix_mapPix hx hy _).trans (if_pos h)

theorem putBlock_pix_outside (h : ¬inBlock s.mbx.toNat s.mby.toNat b p x y = true) :
    (putBlock s b f g).pix p x y = f.pix p x y :=
  (Frame.pix_mapPix hx hy _).trans (if_neg h)

end

/-- Negative values write 0 and values above 255 write 255 (R230, R231). -/
theorem toNat_u8_clamp (v : Int) : ((u8 (clamp v 0 255)).toNat : Int) = min 255 (max 0 v) := by
  rw [toNat_u8] <;> unfold clamp <;> omega

/-! ## The commands (R230, R231) -/

section
variable {s : State} {f : Frame} {b : BitVec 3} (hopen : OpenWith s f) (hb : b.toNat ≤ 5)
include hopen hb

theorem exec_blkPut : exec (.blkPut b) s
    = .next { s with cur := some (putBlock s b.toNat f (putSample s)), recon := markRecon s } :=
  (command_legal hopen.noError (decide_eq_true hb) _).trans (finish_ok (pixelCommand_opened hopen.opened hopen.cur))

theorem exec_blkAdd : exec (.blkAdd b) s
    = .next { s with cur := some (putBlock s b.toNat f (addSample s)), recon := markRecon s } :=
  (command_legal hopen.noError (decide_eq_true hb) _).trans (finish_ok (pixelCommand_opened hopen.opened hopen.cur))

end

/-- Settles O40. -/
theorem blockWrites : Obligations.BlockWrites := by
  intro s f b hopen hb
  obtain ⟨hput, hputW, hputH⟩ := putBlock_shape s b.toNat f (putSample s)
  obtain ⟨hadd, haddW, haddH⟩ := putBlock_shape s b.toNat f (addSample s)
  refine ⟨putBlock s b.toNat f (putSample s), putBlock s b.toNat f (addSample s), markRecon s,
    exec_blkPut hopen hb, exec_blkAdd hopen hb, Grid.setAt_write _ _ _, hput, hputW, hputH, hadd, haddW, haddH,
    fun p x y hx hy => ?_⟩
  rw [originOf_eq]
  refine ⟨fun hin => ?inside, fun hout => ?outside⟩
  case inside =>
    have h := inBlock_iff.mpr hin
    rw [putBlock_pix_inside hx hy _ h, putBlock_pix_inside hx hy _ h]
    exact ⟨toNat_u8_clamp _, toNat_u8_clamp _⟩
  case outside =>
    have h := mt inBlock_iff.mp hout
    exact ⟨putBlock_pix_outside hx hy _ h, putBlock_pix_outside hx hy _ h⟩

end Sys2Proof.Machine
end

section
/-! PROOFS. The neighbours of a block and the keys of the predictor buffers (O42). -/

namespace Sys2Proof.Machine

/-! ## The neighbours of a block (R251, R252) -/

/-- `dx` columns and `dy` rows before luma block `b` stands block `n` of the macroblock `ux` columns and `uy` rows
before, on the 8×8 block grid. -/
abbrev LumaBefore (b : Nat) (dx dy : Int) (ux uy n : Nat) : Prop :=
  b < 4 ∧ n < 4 ∧ (b % 2 : Nat) - dx = (n % 2 : Nat) - 2 * ux ∧ (b / 2 : Nat) - dy = (n / 2 : Nat) - 2 * uy

theorem neighbour_luma {b ux uy n : Nat} {dx dy : Int} (h : LumaBefore b dx dy ux uy n) (x y : Nat) :
    neighbour x y b dx dy = if x < ux ∨ y < uy then none else some ⟨x - ux, y - uy, n⟩ := by
  obtain ⟨hb, hn, hcol, hrow⟩ := h
  rw [neighbour, if_pos hb, lumaSlot, gridX, gridY]
  by_cases hout : x < ux ∨ y < uy
  · rw [if_pos hout, if_pos (by omega)]
  · rw [if_neg hout, if_neg (by omega)]
    congr 2 <;> omega

theorem neighbour_chroma {b : Nat} (hb : 4 ≤ b) (ux uy x y : Nat) :
    neighbour x y b ux uy = if x < ux ∨ y < uy then none else some ⟨x - ux, y - uy, b⟩ := by
  rw [neighbour, if_neg (by omega), chromaSlot]
  by_cases hout : x < ux ∨ y < uy
  · rw [if_pos hout, if_pos (by omega)]
  · rw [if_neg hout, if_neg (by omega)]
    congr 2 <;> omega

/-! ## The keys of the predictor buffers (log entry 25) -/

theorem cacheKey_inj {x y x' y' b b' i i' : Nat} (hy : y < 4096) (hy' : y' < 4096) (hb : b < 8) (hb' : b' < 8)
    (hi : i < 8) (hi' : i' < 8) (h : cacheKey x y b i = cacheKey x' y' b' i') :
    x = x' ∧ y = y' ∧ b = b' ∧ i = i' := by
  unfold cacheKey blockKey mbKey at h
  omega

theorem gridKey_inj {x y x' y' : Nat} (hy : y < 8192) (hy' : y' < 8192) (h : gridKey x y = gridKey x' y') :
    x = x' ∧ y = y' := by
  unfold gridKey at h
  omega

/-- Settles O42. The last three numbers of a `LumaBefore` are the neighbour's macroblock offsets and block. -/
theorem neighbours : Obligations.Neighbours := by
  refine ⟨fun s => ⟨?left0, ?left1, ?left2, ?left3, ?top0, ?top1, ?top2, ?top3,
    ?corner0, ?corner1, ?corner2, ?corner3, fun b hb => ?chroma⟩,
    fun x y x' y' b b' i i' hb hb' hi hi' h => ?cacheKeys,
    fun x y x' y' _ hy _ hy' => gridKey_inj (by omega) (by omega)⟩
  case left0 => simp [leftOf, neighbour_luma (by decide : LumaBefore 0 1 0 1 0 1)]
  case left1 => simp [leftOf, neighbour_luma (by decide : LumaBefore 1 1 0 0 0 0)]
  case left2 => simp [leftOf, neighbour_luma (by decide : LumaBefore 2 1 0 1 0 3)]
  case left3 => simp [leftOf, neighbour_luma (by decide : LumaBefore 3 1 0 0 0 2)]
  case top0 => simp [topOf, neighbour_luma (by decide : LumaBefore 0 0 1 0 1 2)]
  case top1 => simp [topOf, neighbour_luma (by decide : LumaBefore 1 0 1 0 1 3)]
  case top2 => simp [topOf, neighbour_luma (by decide : LumaBefore 2 0 1 0 0 0)]
  case top3 => simp [topOf, neighbour_luma (by decide : LumaBefore 3 0 1 0 0 1)]
  case corner0 => simp [topLeftOf, neighbour_luma (by decide : LumaBefore 0 1 1 1 1 3)]
  case corner1 => simp [topLeftOf, neighbour_luma (by decide : LumaBefore 1 1 1 0 1 2)]
  case corner2 => simp [topLeftOf, neighbour_luma (by decide : LumaBefore 2 1 1 1 0 1)]
  case corner3 => simp [topLeftOf, neighbour_luma (by decide : LumaBefore 3 1 1 0 0 0)]
  case chroma =>
    have hchroma : 4 ≤ b := by omega
    exact ⟨by simpa [leftOf] using neighbour_chroma hchroma 1 0 s.mbx.toNat s.mby.toNat,
      by simpa [topOf] using neighbour_chroma hchroma 0 1 s.mbx.toNat s.mby.toNat,
      by simpa [topLeftOf] using neighbour_chroma hchroma 1 1 s.mbx.toNat s.mby.toNat⟩
  case cacheKeys =>
    obtain ⟨hx, hy, hb, hi⟩ := cacheKey_inj y.isLt y'.isLt (by omega) (by omega) (by omega) (by omega) h
    exact ⟨BitVec.eq_of_toNat_eq hx, BitVec.eq_of_toNat_eq hy, hb, hi⟩

end Sys2Proof.Machine
end

section
/-! PROOFS. The prediction of a block's DC (O43), what `PRED_STORE` stores for later neighbours (O44) and the prediction
of the AC coefficients (O45). -/

namespace Sys2Proof.Machine

/-! ## Running a predictor command -/

theorem finish_picture_update {s : State} (hsize : s.mbw ≠ 0) (f : State → State) :
    finish (needPicture >>= fun _ => update f) s = .next (f s) :=
  finish_ok (bind_ok (needPicture_ok hsize))

section
variable {s : State} (herr : s.err = false)
include herr

/-- Without a picture size a predictor command with legal operands raises `E_SEQ`. -/
theorem exec_without_picture {i : Instr} (hwf : i.wf = true) (hneeds : needsPicture i = true) (hsize : s.mbw = 0) :
    exec i s = .next (withError 7 s) := by
  obtain ⟨-, -, -, -, -, hnoPicture⟩ := preconditions i s herr hwf
  exact hnoPicture hneeds hsize

variable (hsize : s.mbw ≠ 0)
include hsize

theorem exec_cbppred (b : BitVec 2) (raw : Bool) :
    exec (.cbppred b raw) s = .next { s with
      cbpb := s.cbpb.write (gridKey (gridX s.mbx.toNat b.toNat) (gridY s.mby.toNat b.toNat))
        (xor raw (cbpPredicted s b.toNat))
      res0 := n32 (bit01 (xor raw (cbpPredicted s b.toNat))) } :=
  (command_some herr).trans (finish_picture_update hsize _)

theorem exec_mvpred :
    exec .mvpred s = .next { s with
      pmv := predictedMv s, res0 := (predictedMv s).x, res1 := (predictedMv s).y } :=
  (command_some herr).trans (finish_picture_update hsize _)

variable {b : BitVec 3} (hb : b.toNat ≤ 5)
include hb

theorem exec_dcpredVc1 : exec (.dcpredVc1 b) s = .next (applyDc (dcPredVc1 s b.toNat) s) :=
  (command_legal herr (decide_eq_true hb) _).trans (finish_picture_update hsize _)

theorem exec_dcpredWmv2 : exec (.dcpredWmv2 b) s = .next (applyDc (dcPredWmv2 s b.toNat) s) :=
  (command_legal herr (decide_eq_true hb) _).trans (finish_picture_update hsize _)

theorem exec_predStore : exec (.predStore b) s = .next (predStoreOf b.toNat s) :=
  (command_legal herr (decide_eq_true hb) _).trans (finish_picture_update hsize _)

theorem exec_acpred : exec (.acpred b) s = .next { s with coef := acPredCoef s b.toNat } :=
  (command_legal herr (decide_eq_true hb) _).trans (finish_picture_update hsize _)

end

/-! ## DC prediction (R253 to R255) -/

theorem qEff_eq (s : State) :
    qEff s = if cfgDquant s ≠ 0 ∧ s.mqValid = true then s.mquant.toNat else cfgPquant s := by
  simp only [qEff, overrideOn_iff]

theorem rdiv_eq (p step : Int) :
    rdiv p step = if 1 ≤ step then Int.tdiv (p + step / 2) step else Config.rdivUnstated p step := by
  simp only [rdiv, asr, pow_one]

theorem dcChoiceVc1_eq (l t c : Int) :
    dcChoiceVc1 l t c = if |t - c| ≤ |l - c| then ⟨t, false⟩ else ⟨l, true⟩ := by
  simp only [dcChoiceVc1, Int.abs_eq_natAbs, Int.ofNat_le]

/-- The arguments of `dcChoiceWmv2` are left, top-left and top. -/
theorem dcChoiceWmv2_eq (l c t : Int) :
    dcChoiceWmv2 l c t = if |l - c| < |c - t| then ⟨t, false⟩ else ⟨l, true⟩ := by
  simp only [dcChoiceWmv2, Int.abs_eq_natAbs, Int.ofNat_lt]

/-- A command that applies a DC prediction leaves the level it predicted from the top, where `top` holds, or from the
left, adds `DCDIFF` to make coefficient 0 and keeps the other coefficients. -/
theorem applyDc_result {i : Instr} {s : State} {d : DcChoice} {top : Prop} [Decidable top] {t l : Int}
    (hexec : exec i s = .next (applyDc d s)) (hd : d = if top then ⟨t, false⟩ else ⟨l, true⟩) :
    ∃ (w : Vector Word 64) (pred : Int) (dir : Bool),
      (top → pred = t ∧ dir = false) ∧ (¬top → pred = l ∧ dir = true)
      ∧ exec i s = .next { s with coef := w, pdir := dir, res0 := BitVec.ofInt 32 pred }
      ∧ w[(0 : Fin 64)] = BitVec.ofInt 32 (pred + s.dcdiff.toInt)
      ∧ ∀ k : Fin 64, k.val ≠ 0 → w[k] = s.coef[k] := by
  refine ⟨setCoef s.coef 0 (d.pred + s.dcdiff.toInt), d.pred, d.fromLeft, fun htop => ?top, fun hleft => ?left, hexec,
    ?dc, fun k hk => ?ac⟩
  case top => simp [hd, htop]
  case left => simp [hd, hleft]
  case dc => exact (setCoef_getElem _ _ _ 0 (by decide)).trans (if_pos rfl)
  case ac => exact (setCoef_getElem _ _ _ k k.isLt).trans (if_neg hk)

/-- Settles O43. -/
theorem dcPrediction : Obligations.DcPrediction := by
  intro s b herr hb hsize level p q vc1 wmv2 done left above corner
  have hlevel (sentinel : Word) (step : Int) (n : Option Slot) : dcN s sentinel step n = level sentinel step n :=
    rdiv_eq _ step
  have hvc1 : dcN s p.dcSentinelVc1 (stepAt p.vc1DcStep (qEff s)) = vc1 := by
    rw [qEff_eq]
    exact funext (hlevel _ _)
  have hwmv2 : dcN s p.dcSentinelWmv2 (wmv2Scale s b.toNat (cfgPquant s)) = wmv2 := funext (hlevel _ _)
  refine ⟨applyDc_result (exec_dcpredVc1 herr hsize hb) ?_, applyDc_result (exec_dcpredWmv2 herr hsize hb) ?_⟩
  · rw [← hvc1]
    exact dcChoiceVc1_eq _ _ _
  · rw [← hwmv2]
    exact dcChoiceWmv2_eq _ _ _

/-! ## The cached row and column of a block (R256, R257) -/

section
variable {g : Grid Word} {mx my b i k n : Nat} {f : Nat → Word}

/-- The element is the last summand of a cache key, so this needs no bound, unlike `cacheKey_inj`. -/
theorem cacheKey_element_inj : cacheKey mx my b i = cacheKey mx my b k ↔ i = k := by
  unfold cacheKey
  omega

theorem read_storeCache_stored (hi : i < n) : (storeCache g mx my b f n).read (cacheKey mx my b i) = f i := by
  induction n with
  | zero => omega
  | succ n ih =>
    rw [storeCache, Grid.read_write]
    by_cases hlast : i = n
    · rw [if_pos (cacheKey_element_inj.mpr hlast), hlast]
    · rw [if_neg (mt cacheKey_element_inj.mp hlast), ih (by omega)]

theorem read_storeCache_other (hk : ∀ i < n, k ≠ cacheKey mx my b i) :
    (storeCache g mx my b f n).read k = g.read k := by
  induction n with
  | zero => rfl
  | succ n ih =>
    rw [storeCache, Grid.read_write, if_neg (hk n (by omega)), ih fun i hi => hk i (by omega)]

end

/-- Settles O44. -/
theorem predStore : Obligations.PredStore := by
  refine fun s b herr hb =>
    ⟨exec_without_picture herr (decide_eq_true hb) rfl, fun hsize => ⟨_, _, _, exec_predStore herr hsize hb, ?_⟩⟩
  refine ⟨?dc, fun i => ?stored, fun k hk => ?others⟩
  case dc =>
    rw [i32_coefAt s.coef 0 (by decide)]
    exact Grid.setAt_write _ _ _
  case stored =>
    rw [read_storeCache_stored i.isLt, read_storeCache_stored i.isLt]
    exact ⟨i32_coefAt _ _ (by omega), i32_coefAt _ _ (by omega)⟩
  case others =>
    have hk' : ∀ i < 7, k ≠ cacheKey s.mbx.toNat s.mby.toNat b.toNat i := fun i hi => hk ⟨i, hi⟩
    exact ⟨read_storeCache_other hk', read_storeCache_other hk'⟩

/-! ## AC prediction (R257) -/

/-- The word a neighbour's AC cache adds: 0 for a neighbour outside. -/
def cacheWord (g : Grid Word) (n : Option Slot) (i : Nat) : Word :=
  match n with
  | some slot => g.read (cacheKey slot.mx slot.my slot.b i)
  | none => 0

theorem cacheAt_eq (g : Grid Word) (n : Option Slot) (i : Nat) : cacheAt g n i = (cacheWord g n i).toInt := by
  cases n <;> rfl

theorem i32_coefAt_add_cacheAt (u : Vector Word 64) (g : Grid Word) (n : Option Slot) (i : Nat) {k : Nat}
    (hk : k < 64) : i32 (coefAt u k + cacheAt g n i) = u[k] + cacheWord g n i := by
  rw [coefAt_of_lt u hk, cacheAt_eq, i32_toInt_add_toInt, BitVec.signExtend_eq]

section
variable {s : State} {b k : Nat} (hk : k < 64)

theorem acPredCoef_row (hdir : s.pdir = true) (h : 1 ≤ k ∧ k ≤ 7) :
    (acPredCoef s b)[k] = s.coef[k] + cacheWord s.acrow (leftOf s b) (k - 1) := by
  rw [acPredCoef, buildCoef_getElem, if_pos ⟨hdir, h⟩, i32_coefAt_add_cacheAt]

theorem acPredCoef_column (hdir : s.pdir = false) (h : k % 8 = 0 ∧ 8 ≤ k) :
    (acPredCoef s b)[k] = s.coef[k] + cacheWord s.accol (topOf s b) (k / 8 - 1) := by
  rw [acPredCoef, buildCoef_getElem, if_neg (by simp [hdir]), if_pos ⟨hdir, h⟩, i32_coefAt_add_cacheAt]

theorem acPredCoef_kept (hrow : s.pdir = true → k = 0 ∨ 8 ≤ k) (hcol : s.pdir = false → k = 0 ∨ k % 8 ≠ 0) :
    (acPredCoef s b)[k] = s.coef[k] := by
  rw [acPredCoef, buildCoef_getElem, if_neg (fun ⟨hdir, h⟩ => by have := hrow hdir; omega),
    if_neg (fun ⟨hdir, h⟩ => by have := hcol hdir; omega), i32_coefAt]

end

/-- Settles O45. -/
theorem acPrediction : Obligations.AcPrediction := by
  refine fun s b herr hb =>
    ⟨exec_without_picture herr (decide_eq_true hb) rfl, fun hsize => ⟨_, exec_acpred herr hsize hb,
      fun hdir => ⟨fun i => ?row, fun k hk => ?outsideRow⟩,
      fun hdir => ⟨fun i => ?column, fun k hk => ?outsideColumn⟩⟩⟩
  case row =>
    rw [acPredCoef_row (by omega) hdir (by omega), Nat.add_sub_cancel_left]
    rfl
  case outsideRow => exact acPredCoef_kept k.isLt (fun _ => hk) fun h => by simp [hdir] at h
  case column =>
    rw [acPredCoef_column (by omega) hdir (by omega), Nat.mul_div_cancel_left _ (by decide),
      Nat.add_sub_cancel_left]
    rfl
  case outsideColumn => exact acPredCoef_kept k.isLt (fun h => by simp [hdir] at h) fun _ => hk

end Sys2Proof.Machine
end

section
/-! PROOFS. The prediction of a luma block's coded bit (O46) and of a macroblock's motion vector (O47). -/

namespace Sys2Proof.Machine

/-! ## Coded-block-pattern prediction (R258) -/

theorem cbpBit_before (s : State) (x y ux uy : Nat) : cbpBit s ((x : Int) - ux) ((y : Int) - uy)
    = (decide (ux ≤ x) && decide (uy ≤ y) && s.cbpb.read (gridKey (x - ux) (y - uy))) := by
  unfold cbpBit
  by_cases hin : ux ≤ x ∧ uy ≤ y
  · have hx : ((x : Int) - ux).toNat = x - ux := by omega
    have hy : ((y : Int) - uy).toNat = y - uy := by omega
    obtain ⟨hux, huy⟩ := hin
    rw [if_neg (by omega), hx, hy, decide_eq_true hux, decide_eq_true huy]
    rfl
  · rw [if_pos (by omega), ← Bool.decide_and, decide_eq_false hin]
    rfl

section
variable (s : State) (x y : Nat)

theorem cbpBit_left : cbpBit s ((x : Int) - 1) y = (decide (x ≠ 0) && s.cbpb.read (gridKey (x - 1) y)) := by
  simpa [Nat.one_le_iff_ne_zero] using cbpBit_before s x y 1 0

theorem cbpBit_topLeft : cbpBit s ((x : Int) - 1) ((y : Int) - 1)
    = (decide (x ≠ 0) && decide (y ≠ 0) && s.cbpb.read (gridKey (x - 1) (y - 1))) := by
  simpa [Nat.one_le_iff_ne_zero] using cbpBit_before s x y 1 1

theorem cbpBit_top : cbpBit s x ((y : Int) - 1) = (decide (y ≠ 0) && s.cbpb.read (gridKey x (y - 1))) := by
  simpa [Nat.one_le_iff_ne_zero] using cbpBit_before s x y 0 1

end

theorem n32_bit01 (b : Bool) : n32 (bit01 b) = if b = true then 1 else 0 := by cases b <;> rfl

/-- Settles O46. -/
theorem cbpPrediction : Obligations.CbpPrediction := by
  refine fun s b raw herr => ⟨exec_without_picture herr rfl rfl, fun hsize => ?_⟩
  intro x y left corner above coded
  have hpredicted : cbpPredicted s b.toNat = if corner = above then left else above := by
    simp only [left, corner, above, ← cbpBit_left, ← cbpBit_topLeft, ← cbpBit_top]
    rfl
  have hcoded : xor raw (cbpPredicted s b.toNat) = coded := congrArg (xor raw) hpredicted
  refine ⟨s.cbpb.write (gridKey x y) coded, ?_, Grid.setAt_write _ _ _⟩
  rw [exec_cbppred herr hsize, hcoded, n32_bit01]
  rfl

/-! ## Motion-vector prediction (R259, R260) -/

theorem median3_eq (u v w : Int) : median3 u v w = max (min u v) (min (max u v) w) := by
  unfold median3
  omega

/-- The vector that macroblock `(u, v)` of the picture stands for: `(0, 0)` when it is skipped (R259). -/
def storedMv (s : State) (u v : Nat) : Mv :=
  let c := s.mvbuf.read (mbKey u v)
  if c.skipped then ⟨0, 0⟩ else ⟨c.x, c.y⟩

section
variable {s : State}

theorem mvN_outside {x y : Int} (h : x < 0 ∨ y < 0) : mvN s x y = ⟨0, 0⟩ := if_pos (by omega)

theorem mvN_inside {x y : Int} {u v : Nat} (hx : x = u) (hy : y = v) (hu : u < s.mbw.toNat) :
    mvN s x y = storedMv s u v := by
  subst hx hy
  exact if_neg (by omega)

variable {x : Nat} (hx : x < s.mbw.toNat) (y : Nat)
include hx

theorem mvN_left : mvN s ((x : Int) - 1) y = if x = 0 then ⟨0, 0⟩ else storedMv s (x - 1) y := by
  split
  · exact mvN_outside (by omega)
  · exact mvN_inside (by omega) rfl (by omega)

theorem mvN_top : mvN s x ((y : Int) - 1) = if y = 0 then ⟨0, 0⟩ else storedMv s x (y - 1) := by
  split
  · exact mvN_outside (by omega)
  · exact mvN_inside rfl (by omega) hx

/-- The third vector of the median: top-right, or top-left in the last column (R260). -/
theorem mvN_topRight_or_topLeft :
    (if (x : Int) = s.mbw.toNat - 1 then mvN s ((x : Int) - 1) ((y : Int) - 1)
      else mvN s ((x : Int) + 1) ((y : Int) - 1))
      = if y = 0 then ⟨0, 0⟩ else
        if x + 1 < s.mbw.toNat then storedMv s (x + 1) (y - 1) else
          if x = 0 then ⟨0, 0⟩ else storedMv s (x - 1) (y - 1) := by
  by_cases hy : y = 0
  · rw [if_pos hy, mvN_outside (by omega), mvN_outside (by omega), ite_self]
  rw [if_neg hy]
  by_cases hlast : x + 1 < s.mbw.toNat
  · rw [if_pos hlast, if_neg (by omega)]
    exact mvN_inside (by omega) (by omega) hlast
  rw [if_neg hlast, if_pos (by omega)]
  split
  · exact mvN_outside (by omega)
  · exact mvN_inside (by omega) (by omega) (by omega)

end

/-- Settles O47. -/
theorem mvPrediction : Obligations.MvPrediction := by
  refine fun s herr => ⟨exec_without_picture herr rfl rfl, fun hx => ?_⟩
  intro x y stored a b c median m
  have hsize : s.mbw ≠ 0 := fun h => by simp [h] at hx
  have hm : predictedMv s = m := by
    simp only [predictedMv, median3_eq, mvN_left hx, mvN_top hx, mvN_topRight_or_topLeft hx]
    rfl
  rw [exec_mvpred herr hsize, hm]

end Sys2Proof.Machine
end

section
/-! PROOFS. The predictions of a macroblock from a reference frame: bilinear (O48) and mspel (O49). -/

namespace Sys2Proof.Machine

/-! ## Reference samples (R290) -/

@[simp] theorem asr_one (a : Int) : asr a 1 = a / 2 := by simp [asr]

theorem PlaneId.unit_pos (p : PlaneId) : 0 < p.unit := by cases p <;> decide

/-- A value that a sample of 8 bits can have. -/
abbrev InByte (v : Int) : Prop := 0 ≤ v ∧ v ≤ 255

theorem toNat_u8_of_inByte {v : Int} (h : InByte v) : ((u8 v).toNat : Int) = v := toNat_u8 h.1 (by omega)

theorem refPix_inByte (f : Frame) (p : PlaneId) (x y : Int) : InByte (refPix f p x y) := by
  unfold refPix
  omega

/-- A clamped coordinate is a place of its line: the coordinate itself, or the nearer end (R290). -/
theorem clamp_place {n : Nat} (hn : 0 < n) (x : Int) :
    let u := (clamp x 0 ((n : Int) - 1)).toNat
    u < n ∧ (x < 0 → u = 0) ∧ (0 ≤ x → x < n → (u : Int) = x) ∧ (n ≤ x → u = n - 1) := by
  unfold clamp
  omega

/-! ## Bilinear prediction (R292 to R294) -/

/-- The four cases of R292 are one: a fraction of 0 reads the same column, or row, twice. -/
theorem bil_eq (f : Frame) (p : PlaneId) (x y : Int) {fx fy : Int} (hfx : fx = 0 ∨ fx = 1) (hfy : fy = 0 ∨ fy = 1) :
    bil f p x y fx fy = (refPix f p x y + refPix f p (x + fx) y + refPix f p x (y + fy)
      + refPix f p (x + fx) (y + fy) + 2) / 4 := by
  obtain rfl | rfl := hfx <;> obtain rfl | rfl := hfy
  all_goals
    simp only [bil, asr, reduceIte, one_ne_zero, add_zero]
    omega

theorem bil_inByte (f : Frame) (p : PlaneId) (x y : Int) {fx fy : Int} (hfx : fx = 0 ∨ fx = 1)
    (hfy : fy = 0 ∨ fy = 1) : InByte (bil f p x y fx fy) := by
  have hsample := refPix_inByte f p
  have h00 := hsample x y
  have h10 := hsample (x + fx) y
  have h01 := hsample x (y + fy)
  have h11 := hsample (x + fx) (y + fy)
  rw [bil_eq f p x y hfx hfy]
  omega

theorem bilinBuf_bilinear (s : State) (f : Frame) (mv : Mv) : Bilinear s f mv (bilinBuf s f mv) := by
  intro p r c hr hc half vx vy x y x' y'
  have hvx : planeMv s p mv.x.toInt = vx := by cases p <;> rfl
  have hvy : planeMv s p mv.y.toInt = vy := by cases p <;> rfl
  have hfx : vx % 2 = 0 ∨ vx % 2 = 1 := Int.emod_two_eq vx
  have hfy : vy % 2 = 0 ∨ vy % 2 = 1 := Int.emod_two_eq vy
  have hsample : (bilinBuf s f mv).sample p r c = u8 (bil f p x y (vx % 2) (vy % 2)) := by
    simp only [bilinBuf, McBuf.sample_build hr hc, hvx, hvy, asr_one]
    rfl
  rw [hsample, toNat_u8_of_inByte (bil_inByte f p x y hfx hfy), bil_eq f p x y hfx hfy]

/-! ## Running the prediction commands (R293, R295) -/

section
variable {s : State} {f : Frame}

theorem mcBilinRule_forward (href : s.wref0 = some f) :
    mcBilinRule false s = .ok () { s with mcbuf0 := bilinBuf s f s.mvf } := by
  simp [mcBilinRule, href]

theorem mcBilinRule_backward (href : s.wref1 = some f) :
    mcBilinRule true s = .ok () { s with mcbuf1 := bilinBuf s f s.mvbk } := by
  simp [mcBilinRule, href]

theorem mcMspelRule_some (href : s.wref0 = some f) (hshift : Bool) :
    mcMspelRule hshift s = .ok () { s with mcbuf0 := { s.mcbuf0 with y := mspelLuma s f hshift } } := by
  simp [mcMspelRule, href]

variable (herr : s.err = false) (hopen : s.fstate = .opened) (hcur : s.cur.isSome = true)
include herr hopen hcur

/-- In an open frame a pixel command whose rule does not read `CUR` runs that rule. -/
theorem command_pixel_opened {m : Engine Unit} {t : State} (hm : m s = .ok () t) :
    command (some (pixelCommand fun _ => m)) s = .next t := by
  obtain ⟨g, hg⟩ := Option.isSome_iff_exists.mp hcur
  exact (command_some herr).trans (finish_ok ((pixelCommand_opened hopen hg).trans hm))

theorem exec_mcBilin_forward (href : s.wref0 = some f) :
    exec (.mcBilin false) s = .next { s with mcbuf0 := bilinBuf s f s.mvf } :=
  command_pixel_opened herr hopen hcur (mcBilinRule_forward href)

theorem exec_mcBilin_backward (href : s.wref1 = some f) :
    exec (.mcBilin true) s = .next { s with mcbuf1 := bilinBuf s f s.mvbk } :=
  command_pixel_opened herr hopen hcur (mcBilinRule_backward href)

theorem exec_mcMspel (href : s.wref0 = some f) (hshift : Bool) : exec (.mcMspel hshift) s
    = .next { s with mcbuf0 := { s.mcbuf0 with y := mspelLuma s f hshift } } :=
  command_pixel_opened herr hopen hcur (mcMspelRule_some href hshift)

end

/-- Settles O48. -/
theorem mcBilinear : Obligations.McBilinear := by
  refine ⟨fun s k herr => ?errors, fun s f herr hopen hcur => ?samples, fun f p x y hw hh => ?clamped⟩
  case errors =>
    obtain ⟨-, hidle, -, hnoForward, hnoBackward, -⟩ := preconditions (.mcBilin k) s herr rfl
    refine ⟨fun hopen href => ?_, hidle rfl⟩
    cases k with
    | false => exact hnoForward (.inl rfl) hopen href
    | true => exact hnoBackward rfl hopen href
  case samples =>
    exact ⟨fun href => ⟨_, exec_mcBilin_forward herr hopen hcur href, bilinBuf_bilinear s f s.mvf⟩,
      fun href => ⟨_, exec_mcBilin_backward herr hopen hcur href, bilinBuf_bilinear s f s.mvbk⟩⟩
  case clamped =>
    obtain ⟨hu, hleft, hcolumn, hright⟩ := clamp_place (n := f.width p) (Nat.mul_pos p.unit_pos hw) x
    obtain ⟨hv, habove, hrow, hbelow⟩ := clamp_place (n := f.height p) (Nat.mul_pos p.unit_pos hh) y
    exact ⟨_, _, hu, hv, rfl, hleft, hcolumn, hright, habove, hrow, hbelow⟩

/-! ## The lowpass filters of mspel (R295) -/

theorem lowpass_eq (a b c d : Int) :
    lowpass a b c d = min 255 (max 0 ((9 * b + 9 * c - a - d + 8) / 16)) := by
  simp only [lowpass, asr, clamp, mspelTap, mspelRound, mspelShift]
  omega

theorem lowpass_inByte (a b c d : Int) : InByte (lowpass a b c d) := by
  rw [lowpass_eq]
  omega

theorem lowpass_const {g : Int} (hg : InByte g) : lowpass g g g g = g := by
  rw [lowpass_eq]
  omega

theorem noRndAvg_inByte {a b : Int} (ha : InByte a) (hb : InByte b) : InByte (noRndAvg a b) := by
  rw [noRndAvg, asr_one]
  omega

theorem noRndAvg_const (g : Int) : noRndAvg g g = g := by
  rw [noRndAvg, asr_one]
  omega

/-- Every row of the table gives a value that fits a sample. -/
theorem mspelSample_inByte (f : Frame) (dxy : Nat) (u v : Int) : InByte (mspelSample f dxy u v) := by
  have hS := refPix_inByte f .y
  have hH : InByte (mspelH f u v) := lowpass_inByte _ _ _ _
  have hV (u v : Int) : InByte (mspelV f u v) := lowpass_inByte _ _ _ _
  have hHV : InByte (mspelHV f u v) := lowpass_inByte _ _ _ _
  unfold mspelSample
  split
  · exact hS u v
  · exact noRndAvg_inByte (hS u v) hH
  · exact hH
  · exact noRndAvg_inByte (hS (u + 1) v) hH
  · exact hV u v
  · exact noRndAvg_inByte (hV u v) hHV
  · exact hHV
  · exact noRndAvg_inByte (hV (u + 1) v) hHV

/-- A flat reference gives its value in every row of the table. -/
theorem mspelSample_flat {f : Frame} {g : Int} (hflat : ∀ u v, refPix f .y u v = g) (dxy : Nat) (u v : Int) :
    mspelSample f dxy u v = g := by
  have hg : InByte g := hflat 0 0 ▸ refPix_inByte f .y 0 0
  have hH (u v : Int) : mspelH f u v = g := by simp only [mspelH, hflat, lowpass_const hg]
  have hV (u v : Int) : mspelV f u v = g := by simp only [mspelV, hflat, lowpass_const hg]
  have hHV : mspelHV f u v = g := by simp only [mspelHV, hH, lowpass_const hg]
  unfold mspelSample
  split <;> simp only [hflat, hH, hV, hHV, noRndAvg_const]

theorem mspelDxy_eq {mv : Mv} {fx fy : Nat} (hx : mv.x.toInt % 2 = fx) (hy : mv.y.toInt % 2 = fy) (hshift : Bool) :
    mspelDxy mv hshift = 4 * fy + 2 * fx + bit01 hshift := by
  simp [mspelDxy, lowBit, hx, hy]

/-! ## `MC_MSPEL` -/

theorem toNat_mspelLuma (s : State) (f : Frame) (hshift : Bool) {k : Nat} (hk : k < 256) :
    (((mspelLuma s f hshift)[k]).toNat : Int) = mspelSample f (mspelDxy s.mvf hshift)
      (16 * s.mbx.toNat + s.mvf.x.toInt / 2 + (k % 16 : Nat))
      (16 * s.mby.toNat + s.mvf.y.toInt / 2 + (k / 16 : Nat)) := by
  simp only [mspelLuma, Vector.getElem_ofFn, asr_one, toNat_u8_of_inByte (mspelSample_inByte _ _ _ _)]

/-- Settles O49. -/
theorem mcMspel : Obligations.McMspel := by
  refine ⟨fun s hshift herr => ?errors, fun s f hshift herr hopen hcur href => ?samples⟩
  case errors =>
    obtain ⟨-, hidle, -, hnoForward, -, -⟩ := preconditions (.mcMspel hshift) s herr rfl
    exact ⟨hnoForward (.inr ⟨hshift, rfl⟩), hidle rfl⟩
  case samples =>
    intro S lp h vert hv fx fy
    have hH : mspelH f = h := by funext u v; exact lowpass_eq _ _ _ _
    have hV : mspelV f = vert := by funext u v; exact lowpass_eq _ _ _ _
    have hHV : mspelHV f = hv := by funext u v; rw [mspelHV, hH]; exact lowpass_eq _ _ _ _
    refine ⟨mspelLuma s f hshift, exec_mcMspel herr hopen hcur href hshift, fun r c => ?table,
      fun g hflat k => ?flat⟩
    case table =>
      intro u v out
      have hrow {nx ny : Nat} {b : Bool} (hy : fy = ny) (hx : fx = nx) (hb : hshift = b) :
          out = mspelSample f (4 * ny + 2 * nx + bit01 b) u v := by
        have hc : (16 * r.val + c.val) % 16 = c.val := by omega
        have hr : (16 * r.val + c.val) / 16 = r.val := by omega
        rw [← hb, ← mspelDxy_eq hx hy]
        simpa only [hc, hr] using toNat_mspelLuma s f hshift (k := 16 * r.val + c.val) (by omega)
      rw [← hH, ← hV, ← hHV]
      -- At each of the eight numerals `mspelSample` is by definition the table's row.
      exact ⟨hrow, hrow, hrow, hrow, hrow, hrow, hrow, hrow⟩
    case flat =>
      refine BitVec.eq_of_toNat_eq (Int.ofNat_inj.mp ?_)
      exact (toNat_mspelLuma s f hshift k.isLt).trans (mspelSample_flat hflat _ _ _)

end Sys2Proof.Machine
end

section
/-! PROOFS. The scaled vectors of a B frame's direct macroblock (O51), the final prediction that `MC_COMMIT` writes
(O50), and the samples that `FRAME_END` leaves in an untouched macroblock (O54). -/

namespace Sys2Proof.Machine

/-! ## `MV_BDIRECT` (R296) -/

/-- Truncation toward zero divides the magnitude and gives it the sign back. -/
theorem bScale_eq (s : State) (v : Word) : bScale s v = BitVec.ofInt 32
    (if v.toInt < 0 then -((-v.toInt * cfgBfracNum s) / cfgBfracDen s)
      else v.toInt * cfgBfracNum s / cfgBfracDen s) := by
  unfold bScale i32
  congr 1
  split
  case isTrue hneg =>
    have hmul : v.toInt * cfgBfracNum s = -(-v.toInt * cfgBfracNum s) := by ring
    rw [hmul, Int.neg_tdiv, Int.tdiv_eq_ediv_of_nonneg (Int.mul_nonneg (by omega) (by omega))]
  case isFalse hnonneg =>
    exact Int.tdiv_eq_ediv_of_nonneg (Int.mul_nonneg (by omega) (by omega))

theorem i32_toInt_sub_toInt (a b : Word) : i32 (a.toInt - b.toInt) = a - b :=
  BitVec.eq_of_toInt_eq (by rw [i32, BitVec.toInt_ofInt, BitVec.toInt_sub])

/-- Settles O51. -/
theorem bDirect : Obligations.BDirect := by
  refine fun s herr => ⟨fun hden => ?scaled, fun hden => ?zeroDen⟩
  case scaled =>
    intro scaled
    have hscaled : bScale s = scaled := funext (bScale_eq s)
    have hrun : exec .mvBdirect s = .next (bdirectOf s) := (command_some herr).trans (finish_ok (if_neg hden))
    rw [hrun, bdirectOf, i32_toInt_sub_toInt, i32_toInt_sub_toInt, hscaled]
  case zeroDen =>
    exact (command_some herr).trans (finish_withError (e := .badCfg) herr (if_pos hden))

/-! ## `MC_COMMIT` (R297) -/

theorem toNat_commitSample_avg (s : State) (p : PlaneId) (r c : Nat) : (commitSample s true p r c).toNat
    = ((s.mcbuf0.sample p r c).toNat + (s.mcbuf1.sample p r c).toNat + 1) / 2 := by
  have h0 : (s.mcbuf0.sample p r c).toNat < 256 := (s.mcbuf0.sample p r c).isLt
  have h1 : (s.mcbuf1.sample p r c).toNat < 256 := (s.mcbuf1.sample p r c).isLt
  rw [← Int.ofNat_inj, commitSample, if_pos rfl, asr_one, toNat_u8_of_inByte] <;> omega

/-- The samples of a macroblock are the `unit` columns and `unit` rows from its corner on (R17). -/
theorem inMb_iff {mx my : Nat} {p : PlaneId} {x y : Nat} :
    inMb mx my p x y = true ↔ p.unit * mx ≤ x ∧ x < p.unit * mx + p.unit
      ∧ p.unit * my ≤ y ∧ y < p.unit * my + p.unit := by
  have hpos := p.unit_pos
  simp only [inMb, Bool.and_eq_true, decide_eq_true_eq, Nat.div_eq_iff hpos, Nat.mul_comm p.unit]
  omega

/-- Place `k` of unit `m` lies on a line of `w` units of `n` samples each. -/
theorem mul_add_lt_mul {n m w k : Nat} (hm : m < w) (hk : k < n) : n * m + k < n * w :=
  calc n * m + k < n * (m + 1) := Nat.add_lt_add_left hk (n * m)
    _ ≤ n * w := Nat.mul_le_mul_left n hm

section
variable {s : State} {f : Frame} (hopen : OpenWith s f) (avg : Bool) (p : PlaneId)
include hopen

theorem exec_mcCommit :
    exec (.mcCommit avg) s = .next { s with cur := some (commitFrame s avg f), recon := markRecon s } :=
  (command_some hopen.noError).trans (finish_ok (pixelCommand_opened hopen.opened hopen.cur))

theorem commitFrame_pix_inside {r c : Nat} (hr : r < p.unit) (hc : c < p.unit) :
    (commitFrame s avg f).pix p (p.unit * s.mbx.toNat + c) (p.unit * s.mby.toNat + r) = commitSample s avg p r c := by
  have hin := inMb_iff.mpr ⟨Nat.le_add_right (p.unit * s.mbx.toNat) c, Nat.add_lt_add_left hc _,
    Nat.le_add_right (p.unit * s.mby.toNat) r, Nat.add_lt_add_left hr _⟩
  rw [commitFrame, Frame.pix_mapPix (mul_add_lt_mul hopen.column hc) (mul_add_lt_mul hopen.row hr), if_pos hin,
    Nat.mul_add_mod, Nat.mul_add_mod, Nat.mod_eq_of_lt hr, Nat.mod_eq_of_lt hc]

end

theorem commitFrame_pix_outside (s : State) {f : Frame} (avg : Bool) {p : PlaneId} {x y : Nat} (hx : x < f.width p)
    (hy : y < f.height p) (h : ¬inMb s.mbx.toNat s.mby.toNat p x y = true) :
    (commitFrame s avg f).pix p x y = f.pix p x y :=
  (Frame.pix_mapPix hx hy _).trans (if_neg h)

/-- Settles O50. -/
theorem mcCommit : Obligations.McCommit := by
  refine ⟨fun s avg herr hidle => ?idle, fun s f avg hopen => ?samples⟩
  case idle => exact (command_some herr).trans (finish_withError (e := .seq) herr (pixelCommand_idle hidle))
  case samples =>
    obtain ⟨hwf, hwidth, hheight⟩ := commitFrame_shape s avg f
    refine ⟨commitFrame s avg f, markRecon s, exec_mcCommit hopen avg, Grid.setAt_write _ _ _, hwf, hwidth, hheight,
      fun p => ⟨fun r c hr hc => ?inside, fun x y hx hy hout => ?outside⟩⟩
    case inside =>
      rw [commitFrame_pix_inside hopen avg p hr hc]
      refine ⟨fun havg => ?_, fun havg => ?_⟩ <;> rw [havg]
      · rfl
      · exact toNat_commitSample_avg s p r c
    case outside =>
      refine commitFrame_pix_outside s avg hx hy fun hin => ?_
      have := inMb_iff.mp hin
      omega

/-! ## Unmarked macroblocks through the filters (R298, R320) -/

theorem u8_pixInt (f : Frame) (p : PlaneId) (x y : Nat) : u8 (pixInt f p x y) = f.pix p x y := by
  simp [u8, pixInt]

theorem filterLine_unmarked (k : Int → Int → Int → Int → EdgePair) (len : Nat) {marked : Nat → Bool}
    (at' : Nat → Int) {x : Nat} (h : marked x = false) : filterLine k len marked at' x = at' x := by
  simp [filterLine, h]

section
variable {recon : Grid Bool} {f : Frame} {p : PlaneId} {x y : Nat} (hx : x < f.width p) (hy : y < f.height p)
include hx hy

section
variable (hmark : reconAt recon p x y = false) (k : Int → Int → Int → Int → EdgePair)
include hmark

theorem verticalPass_pix_unmarked : (verticalPass k recon f).pix p x y = f.pix p x y := by
  rw [verticalPass, Frame.pix_mapPix hx hy,
    filterLine_unmarked (marked := fun u => reconAt recon p u y) _ _ _ hmark, u8_pixInt]

theorem horizontalPass_pix_unmarked : (horizontalPass k recon f).pix p x y = f.pix p x y := by
  rw [horizontalPass, Frame.pix_mapPix hx hy,
    filterLine_unmarked (marked := fun v => reconAt recon p x v) _ _ _ hmark, u8_pixInt]

theorem filterStage_pix_unmarked : (filterStage k recon f).pix p x y = f.pix p x y :=
  (horizontalPass_pix_unmarked (f := verticalPass k recon f) hx hy hmark k).trans
    (verticalPass_pix_unmarked hx hy hmark k)

end

theorem filterFrame_pix_unmarked {s : State} (hmark : reconAt s.recon p x y = false) :
    (filterFrame s f).pix p x y = f.pix p x y := by
  have hstage := filterStage_pix_unmarked hx hy hmark
  have hstage' := filterStage_pix_unmarked (f := filterStage overlapPair s.recon f) hx hy hmark
  unfold filterFrame
  dsimp only
  split <;> split
  · exact (hstage' _).trans (hstage _)
  · exact hstage _
  · exact hstage _
  · rfl

end

theorem outputFrame_out (s : State) : (outputFrame s).out = s.cur := by
  obtain ⟨_, _, _, _, _, hrotate, -⟩ := rotate_cases { s with out := s.cur }
  rw [outputFrame, hrotate]

theorem exec_frameEnd_opened {s : State} (h : s.fstate = .opened) :
    exec .frameEnd s = .next (closeFrame (outputFrame { s with cur := s.cur.map (filterFrame s) })) :=
  finish_ok (u := ()) (by simp [frameEndRule, h])

/-- Settles O54. -/
theorem untouchedMacroblock : Obligations.UntouchedMacroblock := by
  intro s f hopen hcur hwf
  obtain ⟨hg, hgw, hgh⟩ := filterFrame_shape s hwf
  refine ⟨_, filterFrame s f, exec_frameEnd_opened hopen, ?_, hg, hgw, hgh,
    fun p x y hx hy hmark => filterFrame_pix_unmarked hx hy hmark⟩
  exact (outputFrame_out _).trans (congrArg (Option.map (filterFrame s)) hcur)

end Sys2Proof.Machine
end

section
/-! PROOFS. Every step keeps an open frame with its slots (O17), the error record in agreement with the frame state
(O13), and each sparse buffer in its canonical form (O14). -/

namespace Sys2Proof.Machine

/-! ## The slots of an open frame (R341, R349) -/

/-- After a `raise` no frame is open (R380). -/
theorem raise_not_active (e : ErrCode) (s : State) : (raise e s).fstate.active = false := by
  rw [raise_fstate]
  split
  case isTrue => rfl
  case isFalse h => exact Bool.not_eq_true _ ▸ h

/-- With no frame open nothing is asked of the slots. -/
theorem openInv_of_not_active {s : State} (h : s.fstate.active = false) : OpenInv s := by
  have absurd_active {f : FState} {p : Prop} (hf : s.fstate = f) (hactive : f.active = true) : p := by
    simp [hf, hactive] at h
  exact {
    cur := fun hf => absurd_active hf rfl
    noref := fun hf => absurd_active hf rfl
    size := absurd_active rfl
    predicted := fun hf => absurd_active hf rfl
    bidirectional := fun hf => absurd_active hf rfl }

theorem isSome_of_sameSlot {a b : Option Frame} (h : SameSlot a b) (ha : a.isSome = true) : b.isSome = true := by
  obtain rfl | ⟨_, _, _, rfl, _⟩ := h
  · exact ha
  · rfl

theorem openInv_runs {s t : State} (hr : Runs s t) (h : OpenInv s) : OpenInv t where
  cur hf := isSome_of_sameSlot hr.cur (h.cur (hr.fstate ▸ hf))
  noref hf := isSome_of_sameSlot hr.cur (h.noref (hr.fstate ▸ hf))
  size hf := hr.mbw ▸ h.size (hr.fstate ▸ hf)
  predicted hf ht := hr.wref0 ▸ h.predicted (hr.fstate ▸ hf) (hr.ft ▸ ht)
  bidirectional hf ht := by
    rw [hr.wref0, hr.wref1]
    exact h.bidirectional (hr.fstate ▸ hf) (hr.ft ▸ ht)

/-- Only a VC-1 frame is a B frame (R33, R340). -/
theorem cfgCodec_of_effectiveType_b {s : State} {t : FrameType} (ht : frameTypeOf (cfgCodec s) (cfgFrameType s) = some t)
    (hb : effectiveType s t = .b) : cfgCodec s = .vc1 := by
  unfold effectiveType at hb
  split at hb
  case isTrue => cases hb
  case isFalse =>
    subst hb
    cases hc : cfgCodec s with
    | vc1 => rfl
    | wmv2 =>
      rw [hc] at ht
      unfold frameTypeOf at ht
      split at ht <;> simp_all

theorem openInv_openFrame {s : State} {ft : FrameType} (ix : Bool) (hsize : s.mbw ≠ 0)
    (hft : frameTypeOf (cfgCodec s) (cfgFrameType s) = some ft) :
    OpenInv (openFrame ix (effectiveType s ft) (clearStatus s)) := by
  obtain ⟨fs, c, w0, w1, n, k, x, hopen, -, hcur, hnoref, hp, hb, -⟩ := openByType_cases ix
    (resetPredictors (sentinelOf s.params (cfgCodec s))
      { clearStatus s with fc := cfgCodec s, ft := effectiveType s ft })
  rw [show openFrame ix (effectiveType s ft) (clearStatus s) = _ from hopen]
  exact {
    cur := hcur
    noref := hnoref
    size := fun _ => hsize
    predicted := hp
    bidirectional := fun hf ht => hb hf (cfgCodec_of_effectiveType_b hft ht) ht }

theorem openInv_outputFrame {s : State} (h : OpenInv s) : OpenInv (outputFrame s) := by
  obtain ⟨r, fw, bw, w2, p, hrot, -⟩ := rotate_cases { s with out := s.cur }
  rw [outputFrame, hrot]
  exact { h with }

theorem openInv_stepClosed : StepClosed OpenInv where
  host _ _ h := { h with }
  payload _ _ h := { h with }
  payloadLen _ h := { h with }
  raise e _ := openInv_of_not_active (raise_not_active e _)
  runs := openInv_runs
  wrcfg _ h := { h with }
  resize _ _ := openInv_of_not_active rfl
  clear _ _ := openInv_of_not_active rfl
  opens ix _ hsize hft _ := openInv_openFrame ix hsize hft
  output := openInv_outputFrame
  close _ := openInv_of_not_active rfl

/-- Settles O17. -/
theorem stepKeepsOpenInv : Obligations.StepKeepsOpenInv := fun _ _ => openInv_stepClosed.step_keeps

/-! ## The error record and the frame state (R380, R381, R385) -/

/-- `ECODE` holds one of the codes 1 to 8 of R382. -/
theorem ErrCode.code_range (e : ErrCode) : 1 ≤ e.code.toNat ∧ e.code.toNat ≤ 8 := by
  cases e <;> decide

theorem errorInv_raise {s : State} (e : ErrCode) (h : ErrorInv s) : ErrorInv (raise e s) where
  clear herr := nomatch herr
  recorded _ := by
    rw [raise_ecode]
    split
    case isTrue herr => exact h.recorded herr
    case isFalse => exact e.code_range
  closed _ := raise_not_active e s
  aborted _ := rfl

theorem errorInv_runs {s t : State} (hr : Runs s t) (h : ErrorInv s) : ErrorInv t where
  clear herr := by
    rw [hr.ecode, hr.errcmd, hr.errpos]
    exact h.clear (hr.err ▸ herr)
  recorded herr := hr.ecode ▸ h.recorded (hr.err ▸ herr)
  closed herr := hr.fstate ▸ h.closed (hr.err ▸ herr)
  aborted hf := hr.err ▸ h.aborted (hr.fstate ▸ hf)

/-- No error is recorded and no frame is aborted: what `RESIZE` and `FRAME_BEGIN` leave (R385). -/
theorem errorInv_of_cleared {s : State} (herr : s.err = false) (hrecord : s.ecode = 0 ∧ s.errcmd = 0 ∧ s.errpos = 0)
    (hf : s.fstate ≠ .aborted) : ErrorInv s where
  clear _ := hrecord
  recorded h := by simp [herr] at h
  closed h := by simp [herr] at h
  aborted h := absurd h hf

theorem errorInv_openFrame (ix : Bool) (ft : FrameType) (s : State) :
    ErrorInv (openFrame ix ft (clearStatus s)) := by
  obtain ⟨fs, c, w0, w1, n, k, x, hopen, hactive, -⟩ := openByType_cases ix
    (resetPredictors (sentinelOf s.params (cfgCodec s)) { clearStatus s with fc := cfgCodec s, ft := ft })
  rw [show openFrame ix ft (clearStatus s) = _ from hopen]
  refine errorInv_of_cleared rfl ⟨rfl, rfl, rfl⟩ fun hf => ?_
  have hf : fs = .aborted := hf
  simp [hf, FState.active] at hactive

theorem errorInv_outputFrame {s : State} (h : ErrorInv s) : ErrorInv (outputFrame s) := by
  obtain ⟨r, fw, bw, w2, p, hrot, -⟩ := rotate_cases { s with out := s.cur }
  rw [outputFrame, hrot]
  exact { h with }

theorem errorInv_stepClosed : StepClosed ErrorInv where
  host _ _ h := { h with }
  payload _ _ h := { h with }
  payloadLen _ h := { h with }
  raise := errorInv_raise
  runs := errorInv_runs
  wrcfg _ h := { h with }
  resize _ _ := errorInv_of_cleared rfl ⟨rfl, rfl, rfl⟩ nofun
  clear _ _ := errorInv_of_cleared rfl ⟨rfl, rfl, rfl⟩ nofun
  opens ix _ _ _ _ := errorInv_openFrame ix _ _
  output := errorInv_outputFrame
  close h := { h with closed := fun _ => rfl, aborted := nofun }

/-- Settles O13. -/
theorem stepKeepsErrorInv : Obligations.StepKeepsErrorInv := fun _ _ => errorInv_stepClosed.step_keeps

/-! ## Canonical sparse buffers (log entries 3 and 25) -/

theorem storeInv_runs {s t : State} (hr : Runs s t) (h : StoreInv s) : StoreInv t where
  payload := by rw [hr.params, hr.payload]; exact h.payload
  dcb := hr.dcb h.dcb
  acrow := hr.acrow h.acrow
  accol := hr.accol h.accol
  mvbuf := hr.mvbuf h.mvbuf
  cbpb := hr.cbpb h.cbpb
  recon := hr.recon h.recon

/-- A reset of the predictor buffers lists nothing in them (R341, R352). -/
theorem storeInv_resetPredictors {s : State} (sentinel : Word) (h : StoreInv s) :
    StoreInv (resetPredictors sentinel s) where
  payload := h.payload
  dcb := Grid.wf_fresh _
  acrow := Grid.wf_fresh _
  accol := Grid.wf_fresh _
  mvbuf := Grid.wf_fresh _
  cbpb := Grid.wf_fresh _
  recon := Grid.wf_fresh _

theorem storeInv_openByType {s : State} (ix : Bool) (h : StoreInv s) : StoreInv (openByType ix s) := by
  obtain ⟨fs, c, w0, w1, n, k, x, hopen, -⟩ := openByType_cases ix s
  rw [hopen]
  exact { h with }

theorem storeInv_outputFrame {s : State} (h : StoreInv s) : StoreInv (outputFrame s) := by
  obtain ⟨r, fw, bw, w2, p, hrot, -⟩ := rotate_cases { s with out := s.cur }
  rw [outputFrame, hrot]
  exact { h with }

theorem storeInv_stepClosed : StepClosed StoreInv where
  host _ _ h := { h with }
  payload v ha h := { h with payload := memWrite_wf h.payload ha v }
  payloadLen _ h := { h with }
  raise _ h := { h with }
  runs := storeInv_runs
  wrcfg _ h := { h with }
  resize {s _ _} _ h := { storeInv_resetPredictors (sentinelOf s.params (cfgCodec s)) h with }
  clear _ h := { h with }
  opens ix _ _ _ h := storeInv_openByType ix (storeInv_resetPredictors _ { h with })
  output := storeInv_outputFrame
  close h := { h with }

/-- Settles O14. -/
theorem stepKeepsStoreInv : Obligations.StepKeepsStoreInv := fun _ _ => storeInv_stepClosed.step_keeps

/-! ## Power-on reset (R410) -/

/-- Settles O19. -/
theorem resetMeetsInvariants : Obligations.ResetMeetsInvariants := by
  refine ⟨errorInv_of_cleared rfl ⟨rfl, rfl, rfl⟩ nofun, ?store, ?frames, ?range, openInv_of_not_active rfl⟩
  case store =>
    exact {
      payload := reset_payload_wf _
      dcb := Grid.wf_fresh _
      acrow := Grid.wf_fresh _
      accol := Grid.wf_fresh _
      mvbuf := Grid.wf_fresh _
      cbpb := Grid.wf_fresh _
      recon := Grid.wf_fresh _ }
  case frames => constructor <;> exact slotOk_none _
  case range =>
    exact {
      size := iff_of_true rfl rfl
      column := .inr ⟨rfl, rfl⟩
      row := .inr ⟨rfl, rfl⟩
      payloadLen := Nat.zero_le _
      brLen := Nat.zero_le _
      esc3LL := Nat.zero_le _
      esc3RL := Nat.zero_le _ }

theorem McBuf.sample_zero {p : PlaneId} {r c : Nat} (hr : r < p.unit) (hc : c < p.unit) :
    McBuf.zero.sample p r c = 0 := McBuf.sample_build hr hc _

/-- Settles O18, row after row. -/
theorem resetState : Obligations.ResetState := by
  have hcfg (i : Fin 32) : State.reset.cfg[i] = 0 := by simp [State.reset]
  have hcoef (i : Fin 64) : State.reset.coef[i] = 0 := by simp [State.reset]
  exact ⟨rfl, hcfg, rfl, rfl, rfl, rfl, rfl, rfl, rfl, rfl, rfl, rfl, rfl, rfl, rfl, rfl, rfl, hcoef, rfl, rfl, rfl, rfl,
    rfl, rfl, rfl, rfl, rfl, rfl, rfl, rfl, rfl, rfl, rfl, rfl, rfl, rfl, rfl,
    fun _ _ _ hr hc => ⟨McBuf.sample_zero hr hc, McBuf.sample_zero hr hc⟩,
    rfl, rfl, rfl, rfl, rfl, rfl, rfl, rfl, rfl, rfl, rfl, fun _ => rfl, rfl⟩

end Sys2Proof.Machine
end

section
/-! PROOFS. Frame control: `RESIZE` (O55), the rows of `FRAME_BEGIN` (O57, O58) and the ways `FRAME_END` closes a frame
(O59). -/

namespace Sys2Proof.Machine

/-! ## `RESIZE` (R352) -/

theorem ne_zero_iff_one_le_toNat {w : Nat} {x : BitVec w} : x ≠ 0 ↔ 1 ≤ x.toNat := by
  rw [Nat.one_le_iff_ne_zero, ne_eq, BitVec.toNat_eq]
  simp

theorem legalSize_iff {w h : BitVec 12} : legalSize w h = true ↔ w ≠ 0 ∧ h ≠ 0 := by
  simp only [legalSize, Bool.and_eq_true, decide_eq_true_eq, ne_zero_iff_one_le_toNat]

theorem exec_resize {w h : BitVec 12} (hlegal : legalSize w h = true) (s : State) :
    exec (.resize w h) s = .next (resizeOf w h s) := by
  rw [exec, execResize, hlegal, legalWhen_true, always_some, finish_ok (update_run _ _)]

theorem exec_resize_illegal {w h : BitVec 12} (hlegal : legalSize w h = false) (s : State) :
    exec (.resize w h) s = .next (raise .badCmd s) := by
  rw [exec, execResize, hlegal, legalWhen_false, always_none]

/-- Settles O55. -/
theorem resize : Obligations.Resize := by
  refine fun s w h => ⟨fun hw hh => ?legal, fun hzero herr => ?zero⟩
  case legal =>
    rw [exec_resize (legalSize_iff.mpr ⟨hw, hh⟩)]
    cases hcodec : cfgCodec s <;> rw [resizeOf, hcodec] <;> rfl
  case zero =>
    have hlegal : legalSize w h = false := by
      rw [← Bool.not_eq_true, legalSize_iff]
      tauto
    rw [exec_resize_illegal hlegal, raise_eq_withError herr, ErrCode.code]

/-! ## The checks of `FRAME_BEGIN` (R340) -/

theorem FState.active_eq_false_iff {f : FState} : f.active = false ↔ f = .idle ∨ f = .aborted := by
  cases f <;> simp [FState.active]

theorem FState.active_eq_true_iff {f : FState} : f.active = true ↔ f = .opened ∨ ∃ k, f = .suppressed k := by
  cases f <;> simp [FState.active]

section
variable {s : State} {x : Bool} {t : FrameType}

theorem frameBeginChecked_noSize (hw : s.mbw = 0) : frameBeginChecked x s = .error .seq s := if_pos hw

theorem frameBeginChecked_noType (hw : s.mbw ≠ 0) (ht : frameTypeOf (cfgCodec s) (cfgFrameType s) = none) :
    frameBeginChecked x s = .error .badCfg s := by
  rw [frameBeginChecked, if_neg hw, ht]

theorem frameBeginChecked_badCfg (hw : s.mbw ≠ 0) (ht : frameTypeOf (cfgCodec s) (cfgFrameType s) = some t)
    (hcfg : frameCfgOk s (effectiveType s t) = false) : frameBeginChecked x s = .error .badCfg s := by
  simp only [frameBeginChecked, if_neg hw, ht, hcfg, Bool.false_eq_true, if_false]

theorem frameBeginChecked_opens (hw : s.mbw ≠ 0) (ht : frameTypeOf (cfgCodec s) (cfgFrameType s) = some t)
    (hcfg : frameCfgOk s (effectiveType s t) = true) :
    frameBeginChecked x s = .ok () (openFrame x (effectiveType s t) s) := by
  simp only [frameBeginChecked, if_neg hw, ht, hcfg, if_true]

/-- The checks after the status is cleared end in an opened frame, or at `E_SEQ` or `E_BAD_CFG` with no effect. -/
theorem frameBeginChecked_cases (x : Bool) (s : State) :
    frameBeginChecked x s = .error .seq s ∨ frameBeginChecked x s = .error .badCfg s
      ∨ ∃ ft, frameBeginChecked x s = .ok () (openFrame x ft s) := by
  by_cases hw : s.mbw = 0
  · exact .inl (frameBeginChecked_noSize hw)
  · cases ht : frameTypeOf (cfgCodec s) (cfgFrameType s) with
    | none => exact .inr (.inl (frameBeginChecked_noType hw ht))
    | some t =>
      cases hcfg : frameCfgOk s (effectiveType s t) with
      | false => exact .inr (.inl (frameBeginChecked_badCfg hw ht hcfg))
      | true => exact .inr (.inr ⟨_, frameBeginChecked_opens hw ht hcfg⟩)

/-- `FRAME_BEGIN` with a frame open is out of sequence. -/
theorem exec_frameBegin_active (hf : s.fstate.active = true) :
    exec (.frameBegin x) s = .next (raise .seq s) := finish_error (if_pos hf)

theorem frameBeginRule_of_not_active (hf : s.fstate.active = false) :
    frameBeginRule x s = frameBeginChecked x (clearStatus s) := if_neg (Bool.eq_false_iff.mp hf)

/-- A failed check is raised in the state whose record is cleared. -/
theorem exec_frameBegin_error (hf : s.fstate.active = false) {e : ErrCode}
    (h : frameBeginChecked x (clearStatus s) = .error e (clearStatus s)) :
    exec (.frameBegin x) s = .next (withError e.code (recordCleared s)) := by
  have hrun := finish_error ((frameBeginRule_of_not_active hf).trans h)
  exact hrun.trans (congrArg _ (raise_eq_withError rfl e))

theorem exec_frameBegin_opens (hf : s.fstate.active = false) {ft : FrameType}
    (h : frameBeginChecked x (clearStatus s) = .ok () (openFrame x ft (clearStatus s))) :
    exec (.frameBegin x) s = .next (openFrame x ft (clearStatus s)) :=
  finish_ok ((frameBeginRule_of_not_active hf).trans h)

/-! ### Frame types (R33, R340) -/

theorem frameTypeOf_vc1_eq_none {n : Nat} (h : 4 < n) : frameTypeOf .vc1 n = none := by
  unfold frameTypeOf
  split <;> first | rfl | (exfalso; simp_all)

theorem frameTypeOf_wmv2_eq_none {n : Nat} (h : 1 < n) : frameTypeOf .wmv2 n = none := by
  unfold frameTypeOf
  split <;> first | rfl | (exfalso; simp_all)

/-- Below 4 every VC-1 type is one that decodes. -/
theorem frameTypeOf_vc1_decodes {n : Nat} (h : n < 4) : ∃ t, frameTypeOf .vc1 n = some t ∧ t ≠ .skipped := by
  interval_cases n <;> exact ⟨_, rfl, nofun⟩

/-- Both WMV2 types decode. -/
theorem frameTypeOf_wmv2_decodes {n : Nat} (h : n ≤ 1) : ∃ t, frameTypeOf .wmv2 n = some t ∧ t ≠ .skipped := by
  interval_cases n <;> exact ⟨_, rfl, nofun⟩

theorem effectiveType_vc1 (hc : cfgCodec s = .vc1) (t : FrameType) : effectiveType s t = t :=
  if_neg fun h => by simp [hc] at h

theorem effectiveType_not_skipped (hskip : cfgW2Skipped s = false) (t : FrameType) : effectiveType s t = t :=
  if_neg fun h => by simp [hskip] at h

theorem effectiveType_skipped (hc : cfgCodec s = .wmv2) (hskip : cfgW2Skipped s = true) (t : FrameType) :
    effectiveType s t = .skipped := if_pos ⟨hc, hskip⟩

/-! ### The configuration of a frame (R340) -/

theorem frameCfgOk_zeroPquant (ht : t ≠ .skipped) (hq : cfgPquant s = 0) : frameCfgOk s t = false := by
  simp [frameCfgOk, ht, hq]

theorem frameCfgOk_zeroDen (hc : cfgCodec s = .vc1) (hden : cfgBfracDen s = 0) : frameCfgOk s .b = false := by
  simp [frameCfgOk, hc, hden]

theorem frameCfgOk_skipped (s : State) : frameCfgOk s .skipped = true := by simp [frameCfgOk]

theorem frameCfgOk_of_ne_b (hq : cfgPquant s ≠ 0) (ht : t ≠ .b) : frameCfgOk s t = true := by
  simp [frameCfgOk, hq, ht]

theorem frameCfgOk_b (hq : cfgPquant s ≠ 0) (hden : cfgBfracDen s ≠ 0) : frameCfgOk s .b = true := by
  simp [frameCfgOk, hq, hden]

end

/-- Settles O58, one check after the other in the order of R340. -/
theorem frameBeginRejects : Obligations.FrameBeginRejects := by
  refine fun s x => ⟨fun herr hopen => ?frameOpen, fun hclosed => ?_⟩
  case frameOpen =>
    rw [exec_frameBegin_active (FState.active_eq_true_iff.mpr hopen), raise_eq_withError herr, ErrCode.code]
  have hidle : s.fstate.active = false := FState.active_eq_false_iff.mpr hclosed
  refine ⟨fun hw => exec_frameBegin_error hidle (e := .seq) (frameBeginChecked_noSize hw), fun hw => ?_⟩
  have noType (ht : frameTypeOf (cfgCodec s) (cfgFrameType s) = none) :=
    exec_frameBegin_error (x := x) hidle (e := .badCfg) (frameBeginChecked_noType hw ht)
  have badCfg {t : FrameType} (ht : frameTypeOf (cfgCodec s) (cfgFrameType s) = some t)
      (hcfg : frameCfgOk s (effectiveType s t) = false) :=
    exec_frameBegin_error (x := x) hidle (e := .badCfg) (frameBeginChecked_badCfg hw ht hcfg)
  refine ⟨fun hc ht => noType (hc ▸ frameTypeOf_vc1_eq_none ht),
    fun hc ht => noType (hc ▸ frameTypeOf_wmv2_eq_none ht), fun hc ht hq => ?vc1Pquant,
    fun hc ht hskip hq => ?wmv2Pquant, fun hc ht hden => ?zeroDen⟩
  case vc1Pquant =>
    obtain ⟨t, htype, hdecodes⟩ := frameTypeOf_vc1_decodes ht
    exact badCfg (hc ▸ htype) ((effectiveType_vc1 hc t).symm ▸ frameCfgOk_zeroPquant hdecodes hq)
  case wmv2Pquant =>
    obtain ⟨t, htype, hdecodes⟩ := frameTypeOf_wmv2_decodes ht
    exact badCfg (hc ▸ htype) ((effectiveType_not_skipped hskip t).symm ▸ frameCfgOk_zeroPquant hdecodes hq)
  case zeroDen =>
    exact badCfg (t := .b) (by rw [hc, ht]; rfl) ((effectiveType_vc1 hc .b).symm ▸ frameCfgOk_zeroDen hc hden)

/-! ## The rows of `OpenByType` (R341) -/

/-- The state in which `OpenByType` chooses its row: status cleared, codec and type latched, predictors reset. -/
def pictureReset (s : State) (fc : Codec) (ft : FrameType) : State :=
  resetPredictors (sentinelOf s.params fc) { clearStatus s with fc := fc, ft := ft }

theorem openFrame_clearStatus {s : State} {fc : Codec} (hc : cfgCodec s = fc) (x : Bool) (ft : FrameType) :
    openFrame x ft (clearStatus s) = openByType x (pictureReset s fc ft) := by
  subst hc
  rfl

section
variable (s : State) (fc : Codec) (ft : FrameType)

@[simp] theorem pictureReset_fc : (pictureReset s fc ft).fc = fc := rfl
@[simp] theorem pictureReset_ft : (pictureReset s fc ft).ft = ft := rfl
@[simp] theorem pictureReset_ref : (pictureReset s fc ft).ref = s.ref := rfl
@[simp] theorem pictureReset_fwd : (pictureReset s fc ft).fwd = s.fwd := rfl
@[simp] theorem pictureReset_bwd : (pictureReset s fc ft).bwd = s.bwd := rfl
@[simp] theorem pictureReset_w2ref : (pictureReset s fc ft).w2ref = s.w2ref := rfl
@[simp] theorem freshFrame_pictureReset : freshFrame (pictureReset s fc ft) = freshFrame s := rfl
@[simp] theorem adjFrame_pictureReset : adjFrame (pictureReset s fc ft) = adjFrame s := rfl

@[simp] theorem openWith_pictureReset (f : FState) (c w0 w1 : Option Frame) :
    openWith f c w0 w1 (pictureReset s fc ft) = pictureOpened s fc ft f c w0 w1 false false false := by
  cases fc <;> rfl

@[simp] theorem openNoref_pictureReset : openNoref (pictureReset s fc ft)
    = pictureOpened s fc ft (.suppressed .noref) (some (freshFrame s)) none none true false false := by
  cases fc <;> rfl

/-- A B frame without one of its anchors is skipped. -/
theorem openByType_skipb (x : Bool) (hnone : s.fwd = none ∨ s.bwd = none) :
    openByType x (pictureReset s .vc1 .b)
      = pictureOpened s .vc1 .b (.suppressed .skipb) none none none false true false := by
  cases hfwd : s.fwd with
  | none =>
    simp only [openByType, pictureReset_fc, pictureReset_ft, pictureReset_fwd, hfwd]
    rfl
  | some f =>
    have hbwd : s.bwd = none := hnone.resolve_left (by simp [hfwd])
    simp only [openByType, pictureReset_fc, pictureReset_ft, pictureReset_fwd, pictureReset_bwd, hfwd, hbwd]
    rfl

end

/-- A `FRAME_BEGIN` whose checks pass leaves the state of its row. -/
theorem exec_frameBegin_row {s t : State} {x : Bool} {fc : Codec} {n : Nat} {type ft : FrameType}
    (hf : s.fstate = .idle ∨ s.fstate = .aborted) (hw : s.mbw ≠ 0) (hc : cfgCodec s = fc) (hn : cfgFrameType s = n)
    (htype : frameTypeOf fc n = some type) (heff : effectiveType s type = ft) (hcfg : frameCfgOk s ft = true)
    (hrow : openByType x (pictureReset s fc ft) = t) : exec (.frameBegin x) s = .next t := by
  subst hc hn heff hrow
  rw [← openFrame_clearStatus rfl]
  exact exec_frameBegin_opens (FState.active_eq_false_iff.mpr hf) (frameBeginChecked_opens hw htype hcfg)

/-- Settles O57, row by row of R341. -/
theorem frameBeginOpens : Obligations.FrameBeginOpens := by
  intro s x hf hw go fresh adj
  refine ⟨fun hc => ?vc1, fun hc htype => ?wmv2⟩
  case vc1 =>
    have row {n : Nat} {ft : FrameType} {t : State} (hn : cfgFrameType s = n) (htype : frameTypeOf .vc1 n = some ft)
        (hcfg : frameCfgOk s ft = true) (hrow : openByType x (pictureReset s .vc1 ft) = t) : go t :=
      exec_frameBegin_row hf hw hc hn htype (effectiveType_vc1 hc ft) hcfg hrow
    refine ⟨fun hq => ?decodes, fun hn => ?skipped⟩
    case decodes =>
      have hcfg {ft : FrameType} (hft : ft ≠ .b) : frameCfgOk s ft = true := frameCfgOk_of_ne_b hq hft
      exact ⟨fun hn => row hn rfl (hcfg nofun) (by simp [openByType, fresh]),
        fun hn => row hn rfl (hcfg nofun) (by simp [openByType, fresh]),
        fun hn => ⟨fun _ href => row hn rfl (hcfg nofun) (by simp [openByType, href, adj]),
          fun href => row hn rfl (hcfg nofun) (by simp [openByType, href, fresh])⟩,
        fun hn hden => ⟨fun _ _ hfwd hbwd => row hn rfl (frameCfgOk_b hq hden) (by simp [openByType, hfwd, hbwd, fresh, adj]),
          fun hnone => row hn rfl (frameCfgOk_b hq hden) (openByType_skipb s x hnone)⟩⟩
    case skipped =>
      have hcfg := frameCfgOk_skipped s
      exact ⟨fun _ href => row hn rfl hcfg (by simp [openByType, href]),
        fun href => row hn rfl hcfg (by simp [openByType, href, fresh])⟩
  case wmv2 =>
    refine ⟨fun hskip hq => ?decodes, fun hskip => ?skipped⟩
    case decodes =>
      have row {n : Nat} {ft : FrameType} {t : State} (hn : cfgFrameType s = n) (htype : frameTypeOf .wmv2 n = some ft)
          (hft : ft ≠ .b) (hrow : openByType x (pictureReset s .wmv2 ft) = t) : go t :=
        exec_frameBegin_row hf hw hc hn htype (effectiveType_not_skipped hskip ft) (frameCfgOk_of_ne_b hq hft) hrow
      exact ⟨fun hn => ⟨fun hx => row hn rfl nofun (by simp [openByType, hx, fresh]),
          fun hx => row hn rfl nofun (by subst hx; rfl)⟩,
        fun hn => ⟨fun _ href => row hn rfl nofun (by simp [openByType, href]),
          fun href => row hn rfl nofun (by simp [openByType, href, fresh])⟩⟩
    case skipped =>
      obtain ⟨type, htype, -⟩ := frameTypeOf_wmv2_decodes htype
      have row {t : State} (hrow : openByType x (pictureReset s .wmv2 .skipped) = t) : go t :=
        exec_frameBegin_row hf hw hc rfl htype (effectiveType_skipped hc hskip type) (frameCfgOk_skipped s) hrow
      exact ⟨fun _ href => row (by simp [openByType, href]),
        fun href => row (by simp [openByType, href, fresh])⟩

/-! ## `Rotate` and `FRAME_END` (R321, R346, R347) -/

section
variable {s : State}

theorem rotate_vc1_anchor (hfc : s.fc = .vc1) (hft : s.ft = .i ∨ s.ft = .p) :
    rotate s = { s with fwd := s.bwd, bwd := s.cur, ref := s.cur, prevRrf := cfgRangeredfrm s } := by
  obtain hft | hft := hft <;> simp only [rotate, hfc, hft]

theorem rotate_vc1_skipped (hfc : s.fc = .vc1) (hft : s.ft = .skipped) :
    rotate s = { s with fwd := s.bwd, bwd := s.cur, ref := s.cur } := by
  simp only [rotate, hfc, hft]

theorem rotate_vc1_b (hfc : s.fc = .vc1) (hft : s.ft = .b ∨ s.ft = .bi) : rotate s = s := by
  obtain hft | hft := hft <;> simp only [rotate, hfc, hft]

theorem rotate_wmv2 (hfc : s.fc = .wmv2) : rotate s = { s with w2ref := s.cur } := by
  simp only [rotate, hfc]

theorem exec_frameEnd_idle (hf : s.fstate = .idle) : exec .frameEnd s = .next (raise .seq s) :=
  finish_error (by simp only [frameEndRule, hf])

/-- A frame that is not shown is closed and nothing else. -/
theorem exec_frameEnd_dropped (hf : s.fstate = .aborted ∨ s.fstate = .suppressed .skipb ∨ s.fstate = .suppressed .ix8) :
    exec .frameEnd s = .next (closeFrame s) :=
  finish_ok (u := ()) (by obtain hf | hf | hf := hf <;> simp only [frameEndRule, hf])

theorem exec_frameEnd_noref (hf : s.fstate = .suppressed .noref) :
    exec .frameEnd s = .next (closeFrame (outputFrame s)) :=
  finish_ok (u := ()) (by simp only [frameEndRule, hf])

theorem overlapOn_iff :
    overlapOn s = true ↔ s.fc = .vc1 ∧ s.ft ≠ .skipped ∧ cfgOverlap s = true ∧ 9 ≤ cfgPquant s := by
  simp [overlapOn, and_assoc]

theorem loopOn_iff : loopOn s = true ↔ s.fc = .vc1 ∧ s.ft ≠ .skipped ∧ cfgLoopfilter s = true := by
  simp [loopOn, and_assoc]

/-- A stage that is on computes the filter, a stage that is off passes its input. -/
theorem ite_eq_of_stage {on : Prop} [Decidable on] {f g filtered : Frame} (hon : on → g = filtered)
    (hoff : ¬on → g = f) : (if on then filtered else f) = g := by
  split
  case isTrue h => exact (hon h).symm
  case isFalse h => exact (hoff h).symm

end

/-- `s` with the frame `c` in `CUR` and on the output, as `Rotate` finds it (R346). -/
def withOutput (s : State) (c : Option Frame) : State := { s with cur := c, out := c }

theorem outputFrame_withCur (s : State) (c : Option Frame) :
    outputFrame { s with cur := c } = rotate (withOutput s c) := rfl

/-- Settles O59. -/
theorem frameEnd : Obligations.FrameEnd := by
  intro s closed done stage
  have hdone (c : Option Frame) (hrun : exec .frameEnd s = .next (closeFrame (outputFrame { s with cur := c }))) :
      done c := by
    rw [outputFrame_withCur] at hrun
    have hclose {t u : State} (hrot : rotate (withOutput s c) = t) (hu : closeFrame t = u) : exec .frameEnd s = .next u :=
      hu ▸ hrot ▸ hrun
    exact ⟨fun hfc hft => hclose (rotate_vc1_anchor (s := withOutput s c) hfc hft) rfl,
      fun hfc hft => hclose (rotate_vc1_skipped (s := withOutput s c) hfc hft) rfl,
      fun hfc hft => hclose (rotate_vc1_b (s := withOutput s c) hfc hft) rfl,
      fun hfc => hclose (rotate_wmv2 (s := withOutput s c) hfc) rfl⟩
  refine ⟨fun herr hidle => ?idle, exec_frameEnd_dropped, fun hf => hdone s.cur (exec_frameEnd_noref hf),
    fun hf f g h hcur hoverlap hloop => hdone (some h) ?opened⟩
  case idle => rw [exec_frameEnd_idle hidle, raise_eq_withError herr, ErrCode.code]
  case opened =>
    have hfilter : filterFrame s f = h := by
      rw [← overlapOn_iff] at hoverlap
      rw [← loopOn_iff] at hloop
      unfold filterFrame
      dsimp only
      rw [ite_eq_of_stage hoverlap.1 hoverlap.2, ite_eq_of_stage hloop.1 hloop.2]
    rw [exec_frameEnd_opened hf, hcur, Option.map_some, hfilter]

end Sys2Proof.Machine
end

section
/-! PROOFS. Errors: which ones a command raises and what they record (O10), what runs while one is recorded (O9, O11),
and how the frame state changes (O60). -/

namespace Sys2Proof.Machine

/-! ## The errors a rule may end at (R382) -/

/-- A rule begun in `s` ends so: it has recorded no error itself, and a `raise` at its end is one that `P` admits. -/
def EndsAt {α : Type} (P : ErrCode → Prop) (s : State) : EStateM.Result ErrCode State α → Prop
  | .ok _ t => t.err = s.err
  | .error e t => t.err = s.err ∧ P e

/-- Begun in any state, `m` ends without an error or at one that `P` admits. -/
def EndsIn {α : Type} (P : ErrCode → Prop) (m : Engine α) : Prop := ∀ s, EndsAt P s (m s)

/-- The errors at which decoding a symbol may end (R153, R173, R180). -/
structure SymbolErrors (P : ErrCode → Prop) : Prop where
  vlcInvalid : P .vlcInvalid
  underrun : P .underrun
  symbol : P .symbol

section
variable {α β : Type} {P : ErrCode → Prop}

theorem endsAt_ok {s t : State} (a : α) (h : t.err = s.err) : EndsAt P s (.ok a t) := h

theorem endsAt_error {s : State} {e : ErrCode} (he : P e) : EndsAt P s (.error e s : EStateM.Result _ _ α) := ⟨rfl, he⟩

theorem endsIn_bind {m : Engine α} {f : α → Engine β} (hm : EndsIn P m) (hf : ∀ a, EndsIn P (f a)) :
    EndsIn P (m >>= f) := by
  intro s
  have hs := hm s
  rw [bind_run]
  cases h : m s with
  | ok a t =>
    rw [h] at hs
    have ht : t.err = s.err := hs
    have hend : EndsAt P t (f a t) := hf a t
    unfold EndsAt at hend ⊢
    rwa [ht] at hend
  | error e t =>
    rw [h] at hs
    exact hs

theorem endsIn_update {f : State → State} (h : ∀ s, (f s).err = s.err) : EndsIn P (update f) := h

theorem endsIn_pure (a : α) : EndsIn P (pure a : Engine α) := fun _ => rfl

theorem endsIn_look (f : State → α) : EndsIn P (look f) := fun _ => rfl

theorem endsIn_fail {e : ErrCode} (he : P e) : EndsIn P (fail e : Engine α) := fun _ => ⟨rfl, he⟩

theorem endsIn_bit {f : Bool → Engine β} (hf : ∀ b, EndsIn P (f b)) : EndsIn P (readBit >>= f) :=
  endsIn_bind (fun _ => rfl) hf

theorem endsIn_bits {n : Nat} {f : Nat → Engine β} (hf : ∀ v, EndsIn P (f v)) : EndsIn P (readBits n >>= f) :=
  endsIn_bind (fun _ => rfl) hf

theorem endsIn_decodeSym (h : P .vlcInvalid) {σ : Type} (es : List (VlcEntry σ)) : EndsIn P (decodeSym es) := by
  intro s
  unfold decodeSym
  split
  · exact endsAt_error h
  · exact endsAt_ok _ rfl

theorem endsIn_picture (h : P .seq) {f : State → State} (hf : ∀ s, (f s).err = s.err) :
    EndsIn P (needPicture >>= fun _ => update f) := by
  refine endsIn_bind (fun s => ?_) fun _ => endsIn_update hf
  unfold needPicture
  split
  · exact endsAt_error h
  · exact endsAt_ok _ rfl

theorem endsIn_pixels (h : P .seq) {rule : Frame → Engine Unit} (hrule : ∀ f, EndsIn P (rule f)) :
    EndsIn P (pixelCommand rule) := by
  intro s
  unfold pixelCommand
  split
  · exact endsAt_ok _ rfl
  · exact hrule _ s
  all_goals exact endsAt_error h

section
variable (hP : SymbolErrors P)
include hP

/-- A symbol that is asked for when no bit is left ends at `E_UNDERRUN` (R173). -/
theorem endsIn_needSym {σ : Type} {es : List (VlcEntry σ)} {f : VlcEntry σ → Engine β} (hf : ∀ e, EndsIn P (f e)) :
    EndsIn P (needBits >>= fun _ => decodeSym es >>= f) := by
  refine endsIn_bind (fun s => ?_) fun _ => endsIn_bind (endsIn_decodeSym hP.vlcInvalid es) hf
  unfold needBits
  split
  · exact endsAt_error hP.underrun
  · exact endsAt_ok _ rfl

theorem endsIn_dcVc1 (es : List (VlcEntry Nat)) : EndsIn P (dcVc1Rule es) := by
  refine endsIn_needSym hP fun e => ?_
  split
  · exact endsIn_fail hP.symbol
  · exact endsIn_bits fun _ => endsIn_update fun _ => rfl

theorem endsIn_dcWmv2 (es : List (VlcEntry Nat)) : EndsIn P (dcWmv2Rule es) := by
  have hset (v : Int) : EndsIn P (setDcdiff v) := endsIn_update fun _ => rfl
  refine endsIn_needSym hP fun e => ?_
  split
  · exact endsIn_fail hP.symbol
  · split
    · exact endsIn_bits fun _ => endsIn_bit fun _ => hset _
    · split
      · exact endsIn_bit fun _ => hset _
      · exact hset _

theorem endsIn_decodeRle (es : List (VlcEntry AcSym)) : EndsIn P (decodeRle es) := by
  refine endsIn_bind (endsIn_decodeSym hP.vlcInvalid es) fun e => ?_
  split
  · exact endsIn_pure _
  · exact endsIn_fail hP.symbol

theorem endsIn_escLevel (es : List (VlcEntry AcSym)) : EndsIn P (escLevel es) :=
  endsIn_bind (endsIn_decodeRle hP es) fun ⟨_, _, _⟩ => endsIn_bit fun _ => endsIn_pure _

theorem endsIn_escRun (es : List (VlcEntry AcSym)) : EndsIn P (escRun es) :=
  endsIn_bind (endsIn_decodeRle hP es) fun ⟨_, _, _⟩ => endsIn_bit fun _ => endsIn_pure _

theorem endsIn_escVc1 (es : List (VlcEntry AcSym)) : EndsIn P (escVc1 es) := by
  refine endsIn_bit fun b0 => ?_
  split
  · exact endsIn_escLevel hP es
  · refine endsIn_bit fun b1 => ?_
    split
    · exact endsIn_escRun hP es
    · exact endsIn_bit fun _ => endsIn_bits fun _ => endsIn_bits fun _ => endsIn_bit fun _ => endsIn_pure _

theorem endsIn_acSymVc1 (es : List (VlcEntry AcSym)) : EndsIn P (acSymVc1 es) := by
  refine endsIn_needSym hP fun e => ?_
  split
  · exact endsIn_bit fun _ => endsIn_pure _
  · exact endsIn_escVc1 hP es

omit hP in
theorem endsIn_countZeros (fuel ll : Nat) : EndsIn P (countZeros fuel ll) := by
  induction fuel generalizing ll with
  | zero => exact endsIn_pure ll
  | succ fuel ih =>
    intro s
    unfold countZeros
    split
    · split
      · exact ih (ll + 1) (skipBits 1 s)
      · exact endsAt_ok _ rfl
    · exact endsAt_ok _ rfl

omit hP in
theorem endsIn_esc3Lengths : EndsIn P esc3Lengths := by
  have tail (ll : Nat) : EndsIn P (do
      update fun s => { s with esc3LL := BitVec.ofNat 4 ll }
      let rl ← readBits 2
      update fun s => { s with esc3RL := BitVec.ofNat 4 (rl + 3) }) :=
    endsIn_bind (endsIn_update fun _ => rfl) fun _ => endsIn_bits fun _ => endsIn_update fun _ => rfl
  refine endsIn_bind (endsIn_look _) fun q => ?_
  split
  · refine endsIn_bits fun l3 => ?_
    split
    · exact endsIn_bind (endsIn_countZeros 9 0) tail
    · exact endsIn_bind (endsIn_pure l3) tail
  · exact endsIn_bind (endsIn_countZeros 9 2) tail

omit hP in
theorem endsIn_escAbsWmv2 : EndsIn P escAbsWmv2 := by
  have tail (last : Bool) : EndsIn P (do
      let ll ← look State.esc3LL
      let rl ← look State.esc3RL
      let run ← readBits rl.toNat
      let neg ← readBit
      let mag ← readBits ll.toNat
      pure ⟨run, signed neg mag, last⟩ : Engine RunLevel) :=
    endsIn_bind (endsIn_look _) fun _ => endsIn_bind (endsIn_look _) fun _ => endsIn_bits fun _ =>
      endsIn_bit fun _ => endsIn_bits fun _ => endsIn_pure _
  refine endsIn_bit fun last => endsIn_bind (endsIn_look _) fun ll => ?_
  dsimp only
  split
  · exact endsIn_bind endsIn_esc3Lengths fun _ => tail last
  · exact tail last

theorem endsIn_escWmv2 (es : List (VlcEntry AcSym)) : EndsIn P (escWmv2 es) := by
  refine endsIn_bit fun b0 => ?_
  split
  · exact endsIn_escLevel hP es
  · refine endsIn_bit fun b1 => ?_
    split
    · exact endsIn_escRun hP es
    · exact endsIn_escAbsWmv2

theorem endsIn_acSymWmv2 (es : List (VlcEntry AcSym)) : EndsIn P (acSymWmv2 es) := by
  refine endsIn_needSym hP fun e => ?_
  split
  · exact endsIn_bit fun _ => endsIn_pure _
  · exact endsIn_escWmv2 hP es

end

section
variable (h : P .coefOverflow)
include h

theorem endsIn_place (scan : List Nat) (idx : Int) (run : Nat) (level : Int) :
    EndsIn P (place scan idx run level) := by
  intro s
  simp only [place]
  split
  · exact endsAt_error h
  · exact endsAt_ok _ rfl

theorem endsIn_acLoop {sym : Engine RunLevel} (hsym : EndsIn P sym) (scan : List Nat) (fuel : Nat) (idx : Int)
    (n : Nat) : EndsIn P (acLoop sym scan fuel idx n) := by
  induction fuel generalizing idx n with
  | zero => exact endsIn_fail h
  | succ fuel ih =>
    refine endsIn_bind hsym fun r => endsIn_bind (endsIn_place h _ _ _ _) fun idx' =>
      endsIn_bind (endsIn_update fun _ => rfl) fun _ => ?_
    split
    · exact endsIn_pure _
    · exact ih _ _

theorem endsIn_acBlock {sym : Engine RunLevel} (hsym : EndsIn P sym) (scan : List Nat) (intra : Bool) :
    EndsIn P (acBlockRule sym scan intra) :=
  endsIn_bind (endsIn_acLoop h hsym _ _ _ _) fun ⟨_, _⟩ => endsIn_update fun _ => rfl

end

theorem endsIn_mcBilin (h : P .seq) (k : Bool) : EndsIn P (mcBilinRule k) := by
  intro s
  unfold mcBilinRule
  split
  · exact endsAt_ok _ rfl
  · exact endsAt_error h
  · exact endsAt_ok _ rfl
  · exact endsAt_error h

theorem endsIn_mcMspel (h : P .seq) (hshift : Bool) : EndsIn P (mcMspelRule hshift) := by
  intro s
  unfold mcMspelRule
  split
  · exact endsAt_ok _ rfl
  · exact endsAt_error h

theorem endsIn_mvBdirect (h : P .badCfg) : EndsIn P mvBdirectRule := by
  intro s
  unfold mvBdirectRule
  split
  · exact endsAt_error h
  · exact endsAt_ok _ rfl

theorem endsIn_brNeed (h : P .hdrShort) (n : Nat) : EndsIn P (brNeedRule n) := by
  intro s
  unfold brNeedRule
  split
  · exact endsAt_error h
  · exact endsAt_ok _ rfl

end

/-! ## The rule of every command but the six (R381) -/

/-- In `s` the command `i` is carried out as R381 has it, by a rule that ends at no error but those R382 lists for
`i`. -/
def HasRule (i : Instr) (s : State) : Prop :=
  ∃ rule, exec i s = command rule s ∧ ∀ m, rule = some m → EndsIn (fun e => mayRaise e i = true) m

section
variable {i : Instr} {s : State} {m : Engine Unit}

theorem hasRule_some (hexec : exec i s = command (some m) s) (hm : EndsIn (fun e => mayRaise e i = true) m) :
    HasRule i s := ⟨_, hexec, fun _ h => Option.some.inj h ▸ hm⟩

theorem hasRule_legal {legal : Bool} (hexec : exec i s = command (legalWhen legal m) s)
    (hm : EndsIn (fun e => mayRaise e i = true) m) : HasRule i s :=
  ⟨_, hexec, fun _ h => legalWhen_eq_some h ▸ hm⟩

theorem hasRule_map {α : Type} {o : Option α} {f : α → Engine Unit} (hexec : exec i s = command (o.map f) s)
    (hf : ∀ a, EndsIn (fun e => mayRaise e i = true) (f a)) : HasRule i s :=
  ⟨_, hexec, fun _ h => by
    obtain ⟨a, -, rfl⟩ := Option.map_eq_some_iff.mp h
    exact hf a⟩

theorem hasRule_block {sym : List (VlcEntry AcSym) → Engine RunLevel} {t : BitVec 8} {sc : BitVec 4} {intra : Bool}
    (hexec : exec i s = command ((acTable s.params t).bind fun es => (scanTable s.params sc).map fun scan =>
      acBlockRule (sym es) scan intra) s)
    (hsym : ∀ es, EndsIn (fun e => mayRaise e i = true) (sym es)) (hover : mayRaise .coefOverflow i = true) :
    HasRule i s :=
  ⟨_, hexec, fun _ h => by
    obtain ⟨es, -, hscan⟩ := Option.bind_eq_some_iff.mp h
    obtain ⟨scan, -, rfl⟩ := Option.map_eq_some_iff.mp hscan
    exact endsIn_acBlock hover (hsym es) scan intra⟩

/-- A command whose rule is one change of the state. -/
theorem hasRule_write {f : State → State} (hexec : exec i s = command (some (update f)) s)
    (hf : ∀ s, (f s).err = s.err) : HasRule i s := hasRule_some hexec (endsIn_update hf)

end

theorem setMv_has_rule (sel addp : Bool) (x y : BitVec 11) (s : State) : HasRule (.setMv sel addp x y) s := by
  cases sel <;> exact hasRule_write rfl fun _ => rfl

theorem vlcDecode_has_rule (t : BitVec 8) (s : State) : HasRule (.vlcDecode t) s :=
  hasRule_map rfl fun table => by
    cases table <;> exact endsIn_bind (endsIn_decodeSym (by rfl) _) fun _ => endsIn_update fun _ => rfl

theorem exec_has_rule {i : Instr} (hi : runsUnderError i = false) (s : State) : HasRule i s := by
  cases i with
  | nop | resize _ _ | wrcfg _ _ | rdcfg _ | frameBegin _ | frameEnd => cases hi
  | brInit _ | brSkip _ | brBitsLeft | brIsEmpty | clrCoef | coefWr _ _ | idct8x8 | idct8x4A | idct8x4B | idct4x8A
  | idct4x8B | idct4x4A | idct4x4B | widct8x8 | widct8x4 | widct4x8 => exact hasRule_write rfl fun _ => rfl
  | setMb _ _ | setMquant _ | brPeek _ | dqVc1 _ _ | dqWmv2 _ _ =>
    exact hasRule_legal rfl (endsIn_update fun _ => rfl)
  | setMv sel addp x y => exact setMv_has_rule sel addp x y s
  | brReadBit => exact hasRule_some rfl (endsIn_bit fun _ => endsIn_update fun _ => rfl)
  | brReadBits _ | brReadSigned _ => exact hasRule_legal rfl (endsIn_bits fun _ => endsIn_update fun _ => rfl)
  | brNeed n => exact hasRule_some rfl (endsIn_brNeed (by rfl) n.toNat)
  | vlcDecode t => exact vlcDecode_has_rule t s
  | vlcMaxlevel _ _ _ | vlcMaxrun _ _ _ => exact hasRule_map rfl fun _ => endsIn_update fun _ => rfl
  | dcVc1 _ => exact hasRule_map rfl (endsIn_dcVc1 (by exact ⟨rfl, rfl, rfl⟩))
  | dcWmv2 _ => exact hasRule_map rfl (endsIn_dcWmv2 (by exact ⟨rfl, rfl, rfl⟩))
  | acSymVc1 _ =>
    exact hasRule_map rfl fun es => endsIn_bind (endsIn_acSymVc1 (by exact ⟨rfl, rfl, rfl⟩) es) fun _ => endsIn_update fun _ => rfl
  | acSymWmv2 _ =>
    exact hasRule_map rfl fun es => endsIn_bind (endsIn_acSymWmv2 (by exact ⟨rfl, rfl, rfl⟩) es) fun _ => endsIn_update fun _ => rfl
  | acBlockVc1 _ _ _ => exact hasRule_block rfl (endsIn_acSymVc1 (by exact ⟨rfl, rfl, rfl⟩)) rfl
  | acBlockWmv2 _ _ _ => exact hasRule_block rfl (endsIn_acSymWmv2 (by exact ⟨rfl, rfl, rfl⟩)) rfl
  | dcpredVc1 _ | dcpredWmv2 _ | predStore _ | acpred _ => exact hasRule_legal rfl (endsIn_picture (by rfl) fun _ => rfl)
  | cbppred _ _ | mvpred | mvstore _ => exact hasRule_some rfl (endsIn_picture (by rfl) fun _ => rfl)
  | blkPut _ | blkAdd _ => exact hasRule_legal rfl (endsIn_pixels (by rfl) fun _ => endsIn_update fun _ => rfl)
  | mcCommit _ => exact hasRule_some rfl (endsIn_pixels (by rfl) fun _ => endsIn_update fun _ => rfl)
  | mcBilin k => exact hasRule_some rfl (endsIn_pixels (by rfl) fun _ => endsIn_mcBilin (by rfl) k)
  | mcMspel hshift => exact hasRule_some rfl (endsIn_pixels (by rfl) fun _ => endsIn_mcMspel (by rfl) hshift)
  | mvBdirect => exact hasRule_some rfl (endsIn_mvBdirect (by rfl))

/-! ## What runs while an error is recorded (R381, R385) -/

theorem exec_of_err {i : Instr} {s : State} (herr : s.err = true) (hi : runsUnderError i = false) :
    exec i s = .next s := by
  obtain ⟨rule, hexec, -⟩ := exec_has_rule hi s
  exact hexec.trans (command_of_err herr)

/-- Settles O9. -/
theorem ignoredUnderError : Obligations.IgnoredUnderError := by
  refine ⟨fun i s => exec_of_err, fun s w rest hport herr hnone => ?word, fun s hf => exec_frameEnd_dropped (.inl hf)⟩
  by_cases hdec : ∃ i, decode w = .ok i
  · obtain ⟨i, hi⟩ := hdec
    exact (step_cmd hport hi).trans (exec_of_err herr (hnone i (encode_of_decode hi)))
  · exact (step_illegal hport (not_exists.mp hdec)).trans (command_of_err herr)

/-- The error record of `t` is that of `s`. -/
def SameRecord (s t : State) : Prop :=
  t.err = s.err ∧ t.ecode = s.ecode ∧ t.errcmd = s.errcmd ∧ t.errpos = s.errpos

theorem SameRecord.refl (s : State) : SameRecord s s := ⟨rfl, rfl, rfl, rfl⟩

/-- A second error changes nothing in the record (R380). -/
theorem sameRecord_raise {s : State} (herr : s.err = true) (e : ErrCode) : SameRecord s (raise e s) := by
  simp [SameRecord, herr]

theorem sameRecord_outputFrame (s : State) : SameRecord s (outputFrame s) := by
  obtain ⟨_, _, _, _, _, hrot, -⟩ := rotate_cases { s with out := s.cur }
  rw [outputFrame, hrot]
  exact ⟨rfl, rfl, rfl, rfl⟩

/-- `FRAME_END` raises `E_SEQ` or leaves the record as it is. -/
theorem exec_frameEnd_record {s t : State} (hrun : exec .frameEnd s = .next t) : t = raise .seq s ∨ SameRecord s t := by
  obtain ⟨-, h⟩ | ⟨-, h⟩ | ⟨-, h⟩ | ⟨-, h⟩ := execFrameEnd_cases s <;> cases h.symm.trans hrun
  · exact .inl rfl
  · exact .inr (SameRecord.refl s)
  · exact .inr (sameRecord_outputFrame s)
  · exact .inr (sameRecord_outputFrame { s with cur := s.cur.map (filterFrame s) })

theorem openFrame_cleared (x : Bool) (ft : FrameType) (s : State) :
    (openFrame x ft (clearStatus s)).err = false ∧ (openFrame x ft (clearStatus s)).ecode = 0
      ∧ (openFrame x ft (clearStatus s)).errcmd = 0 ∧ (openFrame x ft (clearStatus s)).errpos = 0
      ∧ (openFrame x ft (clearStatus s)).fstate.active = true := by
  obtain ⟨fs, _, _, _, _, _, _, hopen, hactive, -⟩ := openByType_cases x (pictureReset s (cfgCodec s) ft)
  rw [openFrame_clearStatus rfl, hopen]
  exact ⟨rfl, rfl, rfl, rfl, hactive⟩

/-- The ways `FRAME_BEGIN` can end: out of sequence, at a failed check, or with a frame opened (R340). -/
theorem exec_frameBegin_cases {s t : State} {x : Bool} (hrun : exec (.frameBegin x) s = .next t) :
    (s.fstate.active = true ∧ t = raise .seq s)
    ∨ (s.fstate.active = false ∧ (t = withError 7 (recordCleared s) ∨ t = withError 8 (recordCleared s)))
    ∨ (s.fstate.active = false ∧ ∃ ft, t = openFrame x ft (clearStatus s)) := by
  cases hf : s.fstate.active with
  | true =>
    cases (exec_frameBegin_active hf).symm.trans hrun
    exact .inl ⟨rfl, rfl⟩
  | false =>
    obtain h | h | ⟨ft, h⟩ := frameBeginChecked_cases x (clearStatus s)
    · cases (exec_frameBegin_error hf h).symm.trans hrun
      exact .inr (.inl ⟨rfl, .inl rfl⟩)
    · cases (exec_frameBegin_error hf h).symm.trans hrun
      exact .inr (.inl ⟨rfl, .inr rfl⟩)
    · cases (exec_frameBegin_opens hf h).symm.trans hrun
      exact .inr (.inr ⟨rfl, ft, rfl⟩)

/-- Settles O11, by the six commands that run under an error. -/
theorem firstErrorKept : Obligations.FirstErrorKept := by
  intro i s t herr hrun
  have kept (h : SameRecord s t) : t.err = true ∧ t.ecode = s.ecode ∧ t.errcmd = s.errcmd ∧ t.errpos = s.errpos :=
    ⟨h.1.trans herr, h.2⟩
  cases hi : runsUnderError i with
  | false =>
    cases (exec_of_err herr hi).symm.trans hrun
    exact .inl (kept (.refl s))
  | true =>
    cases i with
    | nop | wrcfg _ _ | rdcfg _ =>
      cases hrun
      exact .inl (kept ⟨rfl, rfl, rfl, rfl⟩)
    | resize w h =>
      cases hlegal : legalSize w h with
      | false =>
        cases (exec_resize_illegal hlegal s).symm.trans hrun
        exact .inl (kept (sameRecord_raise herr _))
      | true =>
        cases (exec_resize hlegal s).symm.trans hrun
        exact .inr (.inl ⟨w, h, rfl, hlegal, rfl, rfl, rfl, rfl⟩)
    | frameBegin x =>
      obtain ⟨-, rfl⟩ | ⟨hf, rfl | rfl⟩ | ⟨hf, ft, rfl⟩ := exec_frameBegin_cases hrun
      · exact .inl (kept (sameRecord_raise herr _))
      · exact .inr (.inr ⟨x, rfl, hf, .inr ⟨rfl, .inl rfl, rfl, rfl⟩⟩)
      · exact .inr (.inr ⟨x, rfl, hf, .inr ⟨rfl, .inr rfl, rfl, rfl⟩⟩)
      · obtain ⟨hopenErr, hcode, hcmd, hpos, -⟩ := openFrame_cleared x ft s
        exact .inr (.inr ⟨x, rfl, hf, .inl ⟨hopenErr, hcode, hcmd, hpos⟩⟩)
    | frameEnd =>
      obtain rfl | h := exec_frameEnd_record hrun
      · exact .inl (kept (sameRecord_raise herr _))
      · exact .inl (kept h)
    | _ => cases hi

/-! ## A raised error is recorded whole (R380, R382) -/

/-- `t` records an error that `i` may raise, with the command word `cmd` and its own cursor, and has no open frame. -/
def Recorded (i : Instr) (cmd : Word) (t : State) : Prop :=
  (∃ e : ErrCode, mayRaise e i = true ∧ t.ecode = e.code) ∧ t.errcmd = cmd ∧ t.errpos = t.brPos
    ∧ t.fstate.active = false

theorem recorded_raise {i : Instr} {e : ErrCode} {s : State} (he : mayRaise e i = true) (herr : s.err = false) :
    Recorded i s.cmd (raise e s) :=
  ⟨⟨e, he, by simp [herr]⟩, by simp [herr], by simp [herr], raise_not_active e s⟩

/-- No command writes what is the host's. -/
theorem host_notMem_partsOf (i : Instr) : Part.host ∉ partsOf i := by
  cases i with
  | setMv sel _ _ _ => cases sel <;> simp [partsOf]
  | mcBilin k => cases k <;> simp [partsOf]
  | _ => simp [partsOf]

/-- The command word being executed stays (R13). -/
theorem exec_cmd {i : Instr} {s t : State} (hrun : exec i s = .next t) : t.cmd = s.cmd := by
  obtain ⟨-, -, -, hcmd, -⟩ := exec_leaves i s t hrun .host (host_notMem_partsOf i)
  exact hcmd

theorem recorded_of_hasRule {i : Instr} {s t : State} (herr : s.err = false) (hrule : HasRule i s)
    (hrun : exec i s = .next t) (ht : t.err = true) : Recorded i s.cmd t := by
  obtain ⟨rule, hexec, hends⟩ := hrule
  rw [← exec_cmd hrun]
  rw [hexec] at hrun
  cases rule with
  | none =>
    cases (command_none herr).symm.trans hrun
    exact recorded_raise rfl herr
  | some m =>
    rw [command_some herr] at hrun
    have hm := hends m rfl s
    obtain ⟨u, hu, h⟩ | ⟨e, u, hu, h⟩ := finish_cases m s <;> cases h.symm.trans hrun <;> rw [hu] at hm
    · have hkeep : t.err = s.err := hm
      rw [hkeep, herr] at ht
      cases ht
    · obtain ⟨hkeep, he⟩ : u.err = s.err ∧ mayRaise e i = true := hm
      exact recorded_raise he (hkeep.trans herr)

/-- Settles O10. -/
theorem errorsRecorded : Obligations.ErrorsRecorded := by
  intro i s t herr hrun ht
  cases hi : runsUnderError i with
  | false => exact recorded_of_hasRule herr (exec_has_rule hi s) hrun ht
  | true =>
    cases i with
    | nop | wrcfg _ _ | rdcfg _ =>
      cases hrun
      cases herr.symm.trans ht
    | resize w h =>
      cases hlegal : legalSize w h with
      | false =>
        cases (exec_resize_illegal hlegal s).symm.trans hrun
        exact recorded_raise rfl herr
      | true =>
        cases (exec_resize hlegal s).symm.trans hrun
        cases ht
    | frameBegin x =>
      obtain ⟨-, rfl⟩ | ⟨-, rfl | rfl⟩ | ⟨-, ft, rfl⟩ := exec_frameBegin_cases hrun
      · exact recorded_raise rfl herr
      · exact ⟨⟨.seq, rfl, rfl⟩, rfl, rfl, rfl⟩
      · exact ⟨⟨.badCfg, rfl, rfl⟩, rfl, rfl, rfl⟩
      · cases (openFrame_cleared x ft s).1.symm.trans ht
    | frameEnd =>
      obtain rfl | h := exec_frameEnd_record hrun
      · exact recorded_raise rfl herr
      · cases (h.1.trans herr).symm.trans ht
    | _ => cases hi

/-! ## The frame state (R349) -/

theorem exec_frameEnd_idles {s t : State} (hrun : exec .frameEnd s = .next t) (hf : s.fstate ≠ .idle) :
    t.fstate = .idle := by
  obtain ⟨hidle, -⟩ | ⟨-, h⟩ | ⟨-, h⟩ | ⟨-, h⟩ := execFrameEnd_cases s
  · exact absurd hidle hf
  all_goals
    cases h.symm.trans hrun
    rfl

/-- Settles O60. -/
theorem frameStateTransitions : Obligations.FrameStateTransitions := by
  intro i s t hrun hne
  have aborts {u : State} {e : ErrCode} (hf : u.fstate = s.fstate) (ht : t = raise e u) :
      s.fstate.active = true ∧ t.err = true ∧ t.fstate = .aborted := by
    subst ht
    rw [raise_fstate, hf] at hne ⊢
    split at hne
    case isTrue hactive => exact ⟨hactive, rfl, if_pos hactive⟩
    case isFalse => exact absurd rfl hne
  cases hi : runsUnderError i with
  | false =>
    obtain ⟨u, hu, h | ⟨e, -, h⟩⟩ := exec_cases hi s <;> cases h.symm.trans hrun
    · exact absurd hu.fstate hne
    · exact .inr (.inr (.inl (aborts hu.fstate rfl)))
  | true =>
    cases i with
    | nop | wrcfg _ _ | rdcfg _ =>
      cases hrun
      exact absurd rfl hne
    | resize w h =>
      cases hlegal : legalSize w h with
      | false =>
        cases (exec_resize_illegal hlegal s).symm.trans hrun
        exact .inr (.inr (.inl (aborts rfl rfl)))
      | true =>
        cases (exec_resize hlegal s).symm.trans hrun
        exact .inr (.inr (.inr ⟨w, h, rfl, rfl⟩))
    | frameBegin x =>
      have rejected (hf : s.fstate.active = false) (hidle : t.fstate = .idle) : s.fstate = .aborted :=
        (FState.active_eq_false_iff.mp hf).resolve_left fun h => hne (hidle.trans h.symm)
      obtain ⟨-, ht⟩ | ⟨hf, rfl | rfl⟩ | ⟨hf, ft, rfl⟩ := exec_frameBegin_cases hrun
      · exact .inr (.inr (.inl (aborts rfl ht)))
      · exact .inl ⟨x, rfl, .inr (rejected hf rfl), .inr ⟨rfl, rejected hf rfl, rfl⟩⟩
      · exact .inl ⟨x, rfl, .inr (rejected hf rfl), .inr ⟨rfl, rejected hf rfl, rfl⟩⟩
      · obtain ⟨hopenErr, -, -, -, hactive⟩ := openFrame_cleared x ft s
        exact .inl ⟨x, rfl, FState.active_eq_false_iff.mp hf, .inl ⟨hopenErr, hactive⟩⟩
    | frameEnd =>
      by_cases hf : s.fstate = .idle
      · cases (exec_frameEnd_idle hf).symm.trans hrun
        exact .inr (.inr (.inl (aborts rfl rfl)))
      · exact .inr (.inl ⟨rfl, hf, exec_frameEnd_idles hrun hf⟩)
    | _ => cases hi

end Sys2Proof.Machine
end

section
/-! PROOFS. The filters: the two boundary filters on samples (O53), and the two passes of a stage against the spec's
order, boundary after boundary and in place (O52). -/

namespace Sys2Proof.Machine

/-! ## One boundary (R323 to R325) -/

theorem overlapPair_before (p1 p2 p3 p4 : Int) : (overlapPair p1 p2 p3 p4).before = (9 * p2 + 3 * p3 + 8) / 16 := rfl

theorem overlapPair_after (p1 p2 p3 p4 : Int) : (overlapPair p1 p2 p3 p4).after = (3 * p2 + 9 * p3 + 8) / 16 := rfl

theorem clamp_eq (v lo hi : Int) : clamp v lo hi = min hi (max lo v) := by
  rw [clamp, max_comm, min_comm]

theorem loopDelta_eq (p1 p2 p3 p4 : Int) :
    loopDelta p1 p2 p3 p4 = min (255 - p3) (max (-p2) ((p1 - 2 * p2 + 2 * p3 - p4 + 4) / 8)) := clamp_eq _ _ _

/-- A constant field has no step to filter. -/
theorem loopPair_const {v : Int} (h : InByte v) : loopPair v v v v = ⟨v, v⟩ := by
  have hdelta : loopDelta v v v v = 0 := by
    rw [loopDelta_eq]
    omega
  have hclamp : clamp v 0 255 = v := by
    rw [clamp_eq]
    omega
  rw [loopPair, hdelta, add_zero, sub_zero, hclamp]

theorem toNat_inByte (x : Byte) : InByte (x.toNat : Int) := by
  have := x.isLt
  omega

/-- Settles O53. -/
theorem boundaryFilters : Obligations.BoundaryFilters := by
  intro a b c d p1 p2 p3 p4 o l delta
  have hb : InByte p2 := toNat_inByte b
  have hc : InByte p3 := toNat_inByte c
  have hdelta : loopDelta p1 p2 p3 p4 = delta := loopDelta_eq p1 p2 p3 p4
  refine ⟨overlapPair_before .., overlapPair_after .., ?_, ?_, ?_, ?_, ?before, ?after, fun hab hbc hcd => ?const⟩
  case before => exact (clamp_eq _ _ _).trans (by rw [hdelta])
  case after => exact (clamp_eq _ _ _).trans (by rw [hdelta])
  case const =>
    subst hab hbc hcd
    have hl : l = ⟨p2, p2⟩ := loopPair_const hb
    exact ⟨by rw [hl], by rw [hl]⟩
  all_goals
    simp only [o, overlapPair_before, overlapPair_after]
    omega

/-! ## Places of samples -/

/-- A place in a frame: plane, column, row. -/
abbrev Site := PlaneId × Nat × Nat

/-- `f` has a sample at the place. -/
def Frame.Has (f : Frame) (z : Site) : Prop := z.2.1 < f.width z.1 ∧ z.2.2 < f.height z.1

def Frame.sample (f : Frame) (z : Site) : Byte := f.pix z.1 z.2.1 z.2.2

def Frame.put (f : Frame) (z : Site) (v : Byte) : Frame := f.setPix z.1 z.2.1 z.2.2 v

/-- The macroblock at the place is marked in `RECON` (R320). -/
def siteMarked (recon : Grid Bool) (z : Site) : Bool := reconAt recon z.1 z.2.1 z.2.2

theorem SameShape.has_iff {f g : Frame} (h : SameShape g f) {z : Site} : g.Has z ↔ f.Has z := by
  unfold Frame.Has Frame.width Frame.height
  rw [h.2.1, h.2.2]

theorem SameShape.width {f g : Frame} (h : SameShape g f) (p : PlaneId) : g.width p = f.width p := by
  unfold Frame.width
  rw [h.2.1]

theorem SameShape.height {f g : Frame} (h : SameShape g f) (p : PlaneId) : g.height p = f.height p := by
  unfold Frame.height
  rw [h.2.2]

/-- The offset of a place in its plane (R85). -/
def Frame.offset (f : Frame) (z : Site) : Nat := z.2.2 * f.width z.1 + z.2.1

theorem getElem?_offset {f : Frame} (hf : f.wf) {z : Site} (hz : f.Has z) :
    (f.plane z.1)[f.offset z]? = some (f.sample z) := Frame.plane_getElem? hf hz.1 hz.2

/-- Two places of one plane have different offsets. -/
theorem offset_inj {f : Frame} {z w : Site} (hz : f.Has z) (hw : f.Has w) (hplane : z.1 = w.1)
    (h : f.offset z = f.offset w) : z = w := by
  obtain ⟨p, x, y⟩ := z
  obtain ⟨q, x', y'⟩ := w
  obtain rfl : p = q := hplane
  have hx : x < f.width p := hz.1
  have hx' : x' < f.width p := hw.1
  have hmod := congrArg (· % f.width p) h
  simp only [Frame.offset, Nat.mul_add_mod_self_right, Nat.mod_eq_of_lt hx, Nat.mod_eq_of_lt hx'] at hmod
  subst hmod
  have hy : y = y' := Nat.eq_of_mul_eq_mul_right (Nat.zero_lt_of_lt hx) (Nat.add_right_cancel h)
  rw [hy]

theorem plane_put (f : Frame) (w : Site) (v : Byte) (p : PlaneId) :
    (f.put w v).plane p = if p = w.1 then (f.plane p).set (f.offset w) v else f.plane p := by
  obtain ⟨q, x, y⟩ := w
  cases p <;> cases q <;> rfl

theorem put_sameShape {f : Frame} (hf : f.wf) (w : Site) (v : Byte) : SameShape (f.put w v) f := by
  have hlen (p : PlaneId) : ((f.put w v).plane p).length = f.width p * f.height p := by
    rw [plane_put]
    split
    · rw [List.length_set, Frame.plane_length hf]
    · exact Frame.plane_length hf p
  have hsize : (f.put w v).mbw = f.mbw ∧ (f.put w v).mbh = f.mbh := by
    obtain ⟨p, x, y⟩ := w
    cases p <;> exact ⟨rfl, rfl⟩
  refine ⟨?_, hsize⟩
  unfold Frame.wf Frame.width Frame.height
  rw [hsize.1, hsize.2]
  exact ⟨hlen .y, hlen .cb, hlen .cr⟩

theorem SameShape.offset {f g : Frame} (h : SameShape g f) (z : Site) : g.offset z = f.offset z := by
  rw [Frame.offset, h.width, Frame.offset]

/-- A sample after one is written. -/
theorem sample_put {f : Frame} (hf : f.wf) {z w : Site} (hz : f.Has z) (hw : f.Has w) (v : Byte) :
    (f.put w v).sample z = if z = w then v else f.sample z := by
  have hput : SameShape (f.put w v) f := put_sameShape hf w v
  have hread := getElem?_offset hput.1 (hput.has_iff.mpr hz)
  have hold := getElem?_offset hf hz
  rw [hput.offset, plane_put] at hread
  apply Option.some.inj
  rw [← hread]
  by_cases h : z = w
  · subst h
    obtain ⟨hlt, -⟩ := List.getElem?_eq_some_iff.mp hold
    simp [hlt]
  · rw [if_neg h]
    split
    case isTrue hplane =>
      have hne : f.offset w ≠ f.offset z := fun heq => h (offset_inj hz hw hplane heq.symm)
      rw [List.getElem?_set_ne hne, hold]
    case isFalse => exact hold

/-- Every offset of a plane is that of a place. -/
theorem exists_site_of_lt {f : Frame} {p : PlaneId} {n : Nat} (h : n < f.width p * f.height p) :
    ∃ z : Site, z.1 = p ∧ f.Has z ∧ f.offset z = n := by
  have hpos : 0 < f.width p := Nat.pos_of_ne_zero fun h0 => by simp [h0] at h
  exact ⟨(p, n % f.width p, n / f.width p), rfl, ⟨Nat.mod_lt n hpos, Nat.div_lt_of_lt_mul h⟩, Nat.div_add_mod' n _⟩

/-- Frames with all their samples and of one size are equal when their samples are. -/
theorem frame_ext {f g : Frame} (hg : SameShape g f) (hf : f.wf) (h : ∀ z, f.Has z → g.sample z = f.sample z) :
    g = f := by
  have hplane (p : PlaneId) : g.plane p = f.plane p := by
    have hglen : (g.plane p).length = f.width p * f.height p := by
      rw [Frame.plane_length hg.1, hg.width, hg.height]
    refine List.ext_getElem? fun n => ?_
    by_cases hn : n < f.width p * f.height p
    · obtain ⟨z, rfl, hz, rfl⟩ := exists_site_of_lt hn
      rw [getElem?_offset hf hz, ← h z hz, ← hg.offset, getElem?_offset hg.1 (hg.has_iff.mpr hz)]
    · rw [List.getElem?_eq_none (by omega), List.getElem?_eq_none (by rw [Frame.plane_length hf]; omega)]
  obtain ⟨-, hw, hh⟩ := hg
  cases f
  cases g
  obtain rfl : _ = _ := hw
  obtain rfl : _ = _ := hh
  obtain rfl : _ = _ := hplane .y
  obtain rfl : _ = _ := hplane .cb
  obtain rfl : _ = _ := hplane .cr
  rfl

/-! ## Steps that touch separate samples -/

/-- Where `g` still reads as `f` on `foot`, the step gives those samples the values of `target`; it leaves all others
as they are in `g`. -/
def LocalStep (f : Frame) (target : Site → Byte) (foot : Site → Prop) (step : Frame → Frame) : Prop :=
  ∀ g, SameShape g f → (∀ z, f.Has z → foot z → g.sample z = f.sample z) →
    SameShape (step g) f ∧ ∀ z, f.Has z →
      (foot z → (step g).sample z = target z) ∧ (¬foot z → (step g).sample z = g.sample z)

section
variable {f : Frame} {target : Site → Byte}

/-- Steps with disjoint feet, one after another, make one step (R326). -/
theorem localStep_foldl {ι : Type} {foot : ι → Site → Prop} {step : Frame → ι → Frame} {l : List ι}
    (hstep : ∀ j ∈ l, LocalStep f target (foot j) (step · j))
    (hdisjoint : l.Pairwise fun i j => ∀ z, foot i z → ¬foot j z) :
    LocalStep f target (fun z => ∃ j ∈ l, foot j z) (l.foldl step) := by
  induction l with
  | nil => exact fun g hg _ => ⟨hg, fun z _ => ⟨fun ⟨_, hj, _⟩ => (nomatch hj), fun _ => rfl⟩⟩
  | cons i l ih =>
    intro g hg hagree
    obtain ⟨hi, hl⟩ := List.pairwise_cons.mp hdisjoint
    obtain ⟨hshape, hsample⟩ := hstep i List.mem_cons_self g hg fun z hz hfoot => hagree z hz ⟨i, List.mem_cons_self, hfoot⟩
    have htail := ih (fun j hj => hstep j (List.mem_cons_of_mem i hj)) hl (step g i) hshape fun z hz ⟨j, hj, hfoot⟩ => by
      rw [(hsample z hz).2 fun h => hi j hj z h hfoot]
      exact hagree z hz ⟨j, List.mem_cons_of_mem i hj, hfoot⟩
    refine ⟨htail.1, fun z hz => ⟨fun ⟨j, hj, hfoot⟩ => ?inside, fun hout => ?outside⟩⟩
    case inside =>
      by_cases hlater : ∃ j ∈ l, foot j z
      · exact (htail.2 z hz).1 hlater
      · obtain rfl | hj := List.mem_cons.mp hj
        · exact ((htail.2 z hz).2 hlater).trans ((hsample z hz).1 hfoot)
        · exact absurd ⟨j, hj, hfoot⟩ hlater
    case outside =>
      have hlater : ¬∃ j ∈ l, foot j z := fun ⟨j, hj, hfoot⟩ => hout ⟨j, List.mem_cons_of_mem i hj, hfoot⟩
      have hnow : ¬foot i z := fun hfoot => hout ⟨i, List.mem_cons_self, hfoot⟩
      exact ((htail.2 z hz).2 hlater).trans ((hsample z hz).2 hnow)

/-- Samples that the step leaves may be counted in when the target leaves them too. -/
theorem LocalStep.extend {foot foot' : Site → Prop} {step : Frame → Frame} (h : LocalStep f target foot step)
    (hsub : ∀ z, f.Has z → foot z → foot' z) (hrest : ∀ z, f.Has z → foot' z → ¬foot z → target z = f.sample z) :
    LocalStep f target foot' step := by
  intro g hg hagree
  obtain ⟨hshape, hsample⟩ := h g hg fun z hz hfoot => hagree z hz (hsub z hz hfoot)
  refine ⟨hshape, fun z hz => ⟨fun hin => ?_, fun hout => (hsample z hz).2 fun hfoot => hout (hsub z hz hfoot)⟩⟩
  by_cases hfoot : foot z
  · exact (hsample z hz).1 hfoot
  · rw [(hsample z hz).2 hfoot, hagree z hz hin, hrest z hz hin hfoot]

/-- A second step on the same samples starts from the first one's result. -/
theorem LocalStep.comp {mid : Frame} {target' : Site → Byte} {foot : Site → Prop} {step step' : Frame → Frame}
    (h : LocalStep f mid.sample foot step) (hmid : SameShape mid f) (h' : LocalStep mid target' foot step') :
    LocalStep f target' foot fun g => step' (step g) := by
  intro g hg hagree
  obtain ⟨hshape, hsample⟩ := h g hg hagree
  have hself : SameShape (step g) mid := ⟨hshape.1, hshape.2.1.trans hmid.2.1.symm, hshape.2.2.trans hmid.2.2.symm⟩
  obtain ⟨hshape', hsample'⟩ := h' (step g) hself fun z hz => (hsample z (hmid.has_iff.mp hz)).1
  refine ⟨hshape'.trans hmid, fun z hz => ?_⟩
  have hz' : mid.Has z := hmid.has_iff.mpr hz
  exact ⟨(hsample' z hz').1, fun hout => ((hsample' z hz').2 hout).trans ((hsample z hz).2 hout)⟩

end

/-! ## The edges of one line -/

section
variable (k : Int → Int → Int → Int → EdgePair)

/-- The samples of a line after the boundary before place `b` alone is filtered (R320, R323, R324). -/
def edgeLine (b : Nat) (marked : Nat → Bool) (at' : Nat → Int) (u : Nat) : Int :=
  if marked (b - 1) = true ∧ marked b = true then
    if u = b then (k (at' (b - 2)) (at' (b - 1)) (at' b) (at' (b + 1))).after
    else if u = b - 1 then (k (at' (b - 2)) (at' (b - 1)) (at' b) (at' (b + 1))).before
    else at' u
  else at' u

/-- The two samples on either side of a boundary (R322). -/
def NearEdge (b u : Nat) : Prop := b ≤ u + 2 ∧ u < b + 2

theorem edgeLine_of_ne {b u : Nat} (hb : u ≠ b) (hb' : u ≠ b - 1) (marked : Nat → Bool) (at' : Nat → Int) :
    edgeLine k b marked at' u = at' u := by
  simp [edgeLine, hb, hb']

/-- Away from every boundary a line keeps its samples. -/
theorem filterLine_eq_self {len u : Nat} (hbefore : u % 8 = 7 → len ≤ u + 1) (hafter : u % 8 = 0 → u = 0)
    (marked : Nat → Bool) (at' : Nat → Int) : filterLine k len marked at' u = at' u := by
  have hnot : ¬(u % 8 = 7 ∧ u + 1 < len ∧ marked u = true ∧ marked (u + 1) = true) := fun h =>
    absurd (hbefore h.1) (by omega)
  have hnot' : ¬(u % 8 = 0 ∧ 0 < u ∧ marked (u - 1) = true ∧ marked u = true) := fun h =>
    absurd (hafter h.1) (by omega)
  rw [filterLine, if_neg hnot, if_neg hnot']

/-- Near a boundary the filtered line is what that boundary's filter makes of it. -/
theorem filterLine_eq_edgeLine {len b u : Nat} (hb : b % 8 = 0) (hpos : 0 < b) (hlt : b < len) (hu : NearEdge b u)
    (marked : Nat → Bool) (at' : Nat → Int) : filterLine k len marked at' u = edgeLine k b marked at' u := by
  obtain ⟨hlo, hhi⟩ := hu
  by_cases hbefore : u = b - 1
  · obtain rfl : b = u + 1 := by omega
    have hmod : u % 8 = 7 := by omega
    simp [filterLine, edgeLine, hmod, hlt]
  · by_cases hafter : u = b
    · subst hafter
      simp [filterLine, edgeLine, hb, hpos]
    · rw [edgeLine_of_ne k hafter hbefore, filterLine_eq_self k (by omega) (by omega)]

theorem edgeLine_congr {b u : Nat} {at₁ at₂ : Nat → Int} (hpos : 1 < b) (hu : NearEdge b u)
    (h : ∀ v, NearEdge b v → at₁ v = at₂ v) (marked : Nat → Bool) :
    edgeLine k b marked at₁ u = edgeLine k b marked at₂ u := by
  rw [edgeLine, h (b - 2) ⟨by omega, by omega⟩, h (b - 1) ⟨by omega, by omega⟩, h b ⟨by omega, by omega⟩,
    h (b + 1) ⟨by omega, by omega⟩, h u hu, edgeLine]

end

/-! ## The lines across boundaries of one direction -/

/-- Vertical boundaries are filtered across them, along rows; horizontal ones down, along columns (R320). -/
inductive Axis where
  | across
  | down

/-- Place `u` of line `n` of a plane. -/
def Axis.site (a : Axis) (p : PlaneId) (n u : Nat) : Site :=
  match a with
  | .across => (p, u, n)
  | .down => (p, n, u)

/-- The length of the lines. -/
def Axis.len (a : Axis) (f : Frame) (p : PlaneId) : Nat :=
  match a with
  | .across => f.width p
  | .down => f.height p

/-- The number of the lines. -/
def Axis.lines (a : Axis) (f : Frame) (p : PlaneId) : Nat :=
  match a with
  | .across => f.height p
  | .down => f.width p

/-- All boundaries of one direction at once, as the model filters them (R322, log entry 14). -/
def Axis.pass (a : Axis) (k : Int → Int → Int → Int → EdgePair) (recon : Grid Bool) (f : Frame) : Frame :=
  match a with
  | .across => verticalPass k recon f
  | .down => horizontalPass k recon f

/-- The samples of line `n` as integers. -/
def Axis.read (a : Axis) (f : Frame) (p : PlaneId) (n u : Nat) : Int := (f.sample (a.site p n u)).toNat

/-- The marks along line `n`. -/
def Axis.marked (a : Axis) (recon : Grid Bool) (p : PlaneId) (n u : Nat) : Bool := siteMarked recon (a.site p n u)

/-- The boundary before place `b` of line `n`, filtered in place (R320, R323, R324). -/
def Axis.filterEdge (a : Axis) (k : Int → Int → Int → Int → EdgePair) (recon : Grid Bool) (p : PlaneId) (n b : Nat)
    (f : Frame) : Frame :=
  if a.marked recon p n (b - 1) = true ∧ a.marked recon p n b = true then
    let e := k (a.read f p n (b - 2)) (a.read f p n (b - 1)) (a.read f p n b) (a.read f p n (b + 1))
    (f.put (a.site p n (b - 1)) (u8 e.before)).put (a.site p n b) (u8 e.after)
  else f

/-- Every boundary of a plane in one direction in rising order, each line rising, in place (R322). -/
def Axis.filterLines (a : Axis) (k : Int → Int → Int → Int → EdgePair) (recon : Grid Bool) (p : PlaneId)
    (len lines : Nat) (f : Frame) : Frame :=
  (boundaries len).foldl (fun g b => (List.range lines).foldl (fun h n => a.filterEdge k recon p n b h) g) f

/-- The spec's order for one plane: across, then down. -/
theorem filterPlane_eq (k : Int → Int → Int → Int → EdgePair) (recon : Grid Bool) (p : PlaneId) (f : Frame) :
    filterPlane k recon p f = Axis.down.filterLines k recon p (f.height p) (f.width p)
      (Axis.across.filterLines k recon p (f.width p) (f.height p) f) := rfl

section
variable {a : Axis} {k : Int → Int → Int → Int → EdgePair} {recon : Grid Bool} {f : Frame} {p : PlaneId} {n u : Nat}

theorem Axis.has_site : f.Has (a.site p n u) ↔ u < a.len f p ∧ n < a.lines f p := by
  cases a
  · exact Iff.rfl
  · exact and_comm

theorem Axis.exists_site (a : Axis) (z : Site) : ∃ n u, z = a.site z.1 n u := by
  obtain ⟨p, x, y⟩ := z
  cases a
  · exact ⟨y, x, rfl⟩
  · exact ⟨x, y, rfl⟩

theorem Axis.site_eq_iff {p' : PlaneId} {n' u' : Nat} :
    a.site p n u = a.site p' n' u' ↔ p = p' ∧ n = n' ∧ u = u' := by
  cases a <;> simp [Axis.site, and_comm]

theorem Axis.len_mod_eight : a.len f p % 8 = 0 := by
  cases a <;> cases p <;> simp [Axis.len, Frame.width, Frame.height, PlaneId.unit] <;> omega

theorem Axis.pass_sameShape : SameShape (a.pass k recon f) f := by
  cases a <;> exact mapPix_shape _ _

theorem Axis.pass_sample (h : f.Has (a.site p n u)) : (a.pass k recon f).sample (a.site p n u)
    = u8 (filterLine k (a.len f p) (a.marked recon p n) (a.read f p n) u) := by
  cases a <;> exact Frame.pix_mapPix h.1 h.2 _

theorem Axis.u8_read : u8 (a.read f p n u) = f.sample (a.site p n u) := u8_pixInt f _ _ _

theorem Axis.has_site_of_le {v : Nat} (h : f.Has (a.site p n u)) (hv : v ≤ u) : f.Has (a.site p n v) := by
  rw [Axis.has_site] at h ⊢
  exact ⟨Nat.lt_of_le_of_lt hv h.1, h.2⟩

/-- An edge filters its own line. -/
theorem Axis.filterEdge_sample (hf : f.wf) {b : Nat} (hb : f.Has (a.site p n b))
    (hu : f.Has (a.site p n u)) : (a.filterEdge k recon p n b f).sample (a.site p n u)
      = u8 (edgeLine k b (a.marked recon p n) (a.read f p n) u) := by
  have hb' : f.Has (a.site p n (b - 1)) := Axis.has_site_of_le hb (Nat.sub_le b 1)
  have hput := put_sameShape hf (a.site p n (b - 1))
  unfold Axis.filterEdge edgeLine
  split
  case isTrue =>
    dsimp only
    rw [sample_put (hput _).1 ((hput _).has_iff.mpr hu) ((hput _).has_iff.mpr hb), sample_put hf hu hb']
    simp only [Axis.site_eq_iff, true_and]
    split
    case isTrue => rfl
    case isFalse =>
      split
      case isTrue => rfl
      case isFalse => exact Axis.u8_read.symm
  case isFalse => exact Axis.u8_read.symm

/-- An edge leaves every sample but its two. -/
theorem Axis.filterEdge_sample_of_ne (hf : f.wf) {b : Nat} (hb : f.Has (a.site p n b)) {z : Site} (hz : f.Has z)
    (hne : z ≠ a.site p n b) (hne' : z ≠ a.site p n (b - 1)) :
    (a.filterEdge k recon p n b f).sample z = f.sample z := by
  have hb' : f.Has (a.site p n (b - 1)) := Axis.has_site_of_le hb (Nat.sub_le b 1)
  have hput := put_sameShape hf (a.site p n (b - 1))
  unfold Axis.filterEdge
  split
  case isTrue =>
    dsimp only
    rw [sample_put (hput _).1 ((hput _).has_iff.mpr hz) ((hput _).has_iff.mpr hb), if_neg hne,
      sample_put hf hz hb', if_neg hne']
  case isFalse => rfl

theorem Axis.filterEdge_sameShape (hf : f.wf) (b : Nat) : SameShape (a.filterEdge k recon p n b f) f := by
  unfold Axis.filterEdge
  split
  case isTrue =>
    have hput := put_sameShape hf (a.site p n (b - 1))
    exact (put_sameShape (hput _).1 _ _).trans (hput _)
  case isFalse => exact ⟨hf, rfl, rfl⟩

/-- The samples of line `n` that the boundary before place `b` reads or writes. -/
def Axis.edgeFoot (a : Axis) (p : PlaneId) (n b : Nat) (z : Site) : Prop := ∃ u, NearEdge b u ∧ z = a.site p n u

/-- Where its four samples are still those of `f`, an edge gives them their values after the pass over `f`. -/
theorem Axis.filterEdge_local {b : Nat} (hmod : b % 8 = 0) (hpos : 0 < b) (hb : f.Has (a.site p n b)) :
    LocalStep f (a.pass k recon f).sample (a.edgeFoot p n b) (a.filterEdge k recon p n b) := by
  have hb8 : 8 ≤ b := by omega
  have hlt : b < a.len f p := (Axis.has_site.mp hb).1
  have hn : n < a.lines f p := (Axis.has_site.mp hb).2
  have hlen := Axis.len_mod_eight (a := a) (f := f) (p := p)
  intro g hg hagree
  have hgb : g.Has (a.site p n b) := hg.has_iff.mpr hb
  have hread (v : Nat) (hv : NearEdge b v) : a.read g p n v = a.read f p n v := by
    have hfv : f.Has (a.site p n v) := Axis.has_site.mpr ⟨by unfold NearEdge at hv; omega, hn⟩
    unfold Axis.read
    rw [hagree _ hfv ⟨v, hv, rfl⟩]
  refine ⟨(Axis.filterEdge_sameShape hg.1 b).trans hg, fun z hz => ⟨?inside, fun hout => ?outside⟩⟩
  case inside =>
    rintro ⟨u, hu, rfl⟩
    rw [Axis.filterEdge_sample hg.1 hgb (hg.has_iff.mpr hz), edgeLine_congr k (by omega) hu hread,
      ← filterLine_eq_edgeLine k hmod hpos hlt hu, Axis.pass_sample hz]
  case outside =>
    refine Axis.filterEdge_sample_of_ne hg.1 hgb (hg.has_iff.mpr hz) (fun h => hout ⟨b, ?_, h⟩)
      fun h => hout ⟨b - 1, ?_, h⟩ <;> unfold NearEdge <;> omega

end

/-! ## All edges of a plane, and all planes (R322, R326) -/

theorem mem_boundaries {len b : Nat} : b ∈ boundaries len ↔ b < len ∧ b % 8 = 0 ∧ 0 < b := by
  simp [boundaries]

/-- Two nested loops are one loop over the pairs. -/
theorem foldl_foldl_eq_foldl_product {α β γ : Type} (step : γ → α → β → γ) (l : List α) (m : List β) (init : γ) :
    l.foldl (fun g x => m.foldl (fun h y => step h x y) g) init
      = (l ×ˢ m).foldl (fun g j => step g j.1 j.2) init := by
  simp only [SProd.sprod, List.product, List.foldl_flatMap, List.foldl_map]

/-- Different edges of a plane share no sample: boundaries of one line lie eight places apart. -/
theorem Axis.edgeFoot_disjoint {a : Axis} {p : PlaneId} {n b n' b' : Nat} (hb : b % 8 = 0) (hb' : b' % 8 = 0)
    (hne : (b, n) ≠ (b', n')) (z : Site) (h : a.edgeFoot p n b z) : ¬a.edgeFoot p n' b' z := by
  rintro ⟨u', hu', h'⟩
  obtain ⟨u, hu, rfl⟩ := h
  obtain ⟨-, rfl, rfl⟩ := Axis.site_eq_iff.mp h'
  refine hne (congrArg (·, n) ?_)
  unfold NearEdge at hu hu'
  omega

section
variable (k : Int → Int → Int → Int → EdgePair) (recon : Grid Bool) (f : Frame) (p : PlaneId)

/-- The boundaries of one direction, one after another, do on a plane what the pass does. -/
theorem Axis.filterLines_local (a : Axis) : LocalStep f (a.pass k recon f).sample (fun z => z.1 = p)
    (a.filterLines k recon p (a.len f p) (a.lines f p)) := by
  have hplane {n b : Nat} {z : Site} (h : a.edgeFoot p n b z) : z.1 = p := by
    obtain ⟨u, -, rfl⟩ := h
    cases a <;> rfl
  have hmem {j : Nat × Nat} (hj : j ∈ boundaries (a.len f p) ×ˢ List.range (a.lines f p)) :
      j.1 < a.len f p ∧ j.1 % 8 = 0 ∧ 0 < j.1 ∧ j.2 < a.lines f p := by
    obtain ⟨hb, hn⟩ := List.mem_product.mp hj
    obtain ⟨hlt, hmod, hpos⟩ := mem_boundaries.mp hb
    exact ⟨hlt, hmod, hpos, List.mem_range.mp hn⟩
  have hedges : LocalStep f (a.pass k recon f).sample
      (fun z => ∃ j ∈ boundaries (a.len f p) ×ˢ List.range (a.lines f p), a.edgeFoot p j.2 j.1 z)
      (a.filterLines k recon p (a.len f p) (a.lines f p)) := by
    unfold Axis.filterLines
    simp only [foldl_foldl_eq_foldl_product fun h b n => a.filterEdge k recon p n b h]
    refine localStep_foldl (fun j hj => ?_) (List.Nodup.pairwise_of_forall_ne ?_ fun i hi j hj hne => ?_)
    · obtain ⟨hlt, hmod, hpos, hn⟩ := hmem hj
      exact Axis.filterEdge_local hmod hpos (Axis.has_site.mpr ⟨hlt, hn⟩)
    · exact (List.nodup_range.filter _).product List.nodup_range
    · exact Axis.edgeFoot_disjoint (hmem hi).2.1 (hmem hj).2.1 hne
  refine hedges.extend (fun z _ ⟨j, _, hfoot⟩ => hplane hfoot) fun z hz hp hout => ?_
  obtain ⟨n, u, hsite⟩ := a.exists_site z
  rw [hp] at hsite
  subst hsite
  obtain ⟨hu, hn⟩ := Axis.has_site.mp hz
  have hno {b : Nat} (hb : b ∈ boundaries (a.len f p)) (hnear : NearEdge b u) : False :=
    hout ⟨(b, n), List.mem_product.mpr ⟨hb, List.mem_range.mpr hn⟩, u, hnear, rfl⟩
  rw [Axis.pass_sample hz, filterLine_eq_self k (fun h7 => ?_) (fun h0 => ?_), Axis.u8_read]
  · by_contra hlt
    exact hno (b := u + 1) (mem_boundaries.mpr (by omega)) ⟨by omega, by omega⟩
  · by_contra hpos
    exact hno (b := u) (mem_boundaries.mpr (by omega)) ⟨by omega, by omega⟩

theorem filterPlane_local :
    LocalStep f (filterStage k recon f).sample (fun z => z.1 = p) (filterPlane k recon p) := by
  intro g hg
  rw [filterPlane_eq, hg.width, hg.height]
  have hmid : SameShape (Axis.across.pass k recon f) f := Axis.pass_sameShape
  exact (Axis.across.filterLines_local k recon f p).comp hmid
    (Axis.down.filterLines_local k recon (Axis.across.pass k recon f) p) g hg

theorem filterStage_eq_filterInOrder (hf : f.wf) : filterStage k recon f = filterInOrder k recon f := by
  have hplanes : LocalStep f (filterStage k recon f).sample (fun z => ∃ q ∈ [PlaneId.y, .cb, .cr], z.1 = q)
      (filterInOrder k recon) :=
    localStep_foldl (fun q _ => filterPlane_local k recon f q) (by simp)
  obtain ⟨hshape, hsample⟩ := hplanes f ⟨hf, rfl, rfl⟩ fun _ _ _ => rfl
  have hstage : SameShape (filterStage k recon f) f := filterStage_shape k recon f
  refine (frame_ext ⟨hshape.1, hshape.2.1.trans hstage.2.1.symm, hshape.2.2.trans hstage.2.2.symm⟩ hstage.1
    fun z hz => (hsample z (hstage.has_iff.mp hz)).1 ?_).symm
  obtain ⟨q, x, y⟩ := z
  cases q <;> simp

end

/-- Settles O52: the order of R322 and the two passes agree for every boundary filter. -/
theorem filterOrder : Obligations.FilterOrder := fun recon f hf =>
  ⟨filterStage_eq_filterInOrder overlapPair recon f hf, filterStage_eq_filterInOrder loopPair recon f hf⟩

end Sys2Proof.Machine
end
